-- ==== Sys2Proof/Word.lean ====
section
/-! DEFINITION. The values of the machine: bytes, register words, nibbles, raw units, and cells (memories by key). -/

namespace Sys2Proof

/-- A byte, bits 7 (most significant) to 0 (R9). -/
abbrev Byte := BitVec 8

/-- A host-visible register value (R8, R26). -/
abbrev Word := BitVec 32

/-- A nibble, the unit of the Gray transform (R9, R90). -/
abbrev Nibble := BitVec 4

/-- A raw 2-bit unit of a plane before packing (R21). -/
abbrev RawUnit := BitVec 2

/-- Sparse data by address: the addresses that hold a written value, with that value. -/
abbrev Cells (α : Type) := List (Nat × α)

/-- A byte memory: IN, OUT or a packed plane. -/
abbrev Memory := List Host.Cell

end Sys2Proof
end

