-- ==== Sys2Proof/Config.lean ====
section
/-! DEFINITION. What an implementation fixes (IN_MEM_BYTES), the fixed sizes of R8, and the free values: constants with
no body, so that nothing can be proved about the value the spec leaves open. -/

namespace Sys2Proof

/-- IN_MEM_BYTES less one. R8 and D9 leave the size of the input memory open, between 1 and 2^32 - 1. -/
opaque Config.inMemTop : Fin 4294967295

/-- IN_MEM_BYTES, the size of the input memory (R8): at least 1, at most 2^32 - 1. -/
def Config.inMemBytes : Nat := Config.inMemTop.val + 1

/-- OUT_MEM_BYTES, the size of the output memory (R8). -/
def Config.outMemBytes : Nat := 3600

/-- The byte that IN holds at an address from power-up until it is written (R35, U4): free. -/
opaque Config.powerUpIn (a : Nat) : Byte

/-- The byte that OUT holds at an address nothing has written since power-up (`era` 0, U4) or since the last reset that
came while BUSY (later eras, R138, U3): free, and fixed within an era. -/
opaque Config.unwrittenOut (era a : Nat) : Byte

/-- The 32 bits of the `i`-th unspecified register read while BUSY (R34, U1): free. -/
opaque Config.busyWord (i : Nat) : Word

/-- The byte of the `i`-th unspecified read while BUSY, when it is a read of OUT (R47, U2): free. -/
opaque Config.busyByte (i : Nat) : Byte

/-- A raw plane unit that nothing has written since the planes became unspecified (R23, U7): free. -/
opaque Config.unwrittenRaw (era : Nat) (slot : Bool) (i : Nat) : RawUnit

/-- A packed plane byte that nothing has written since the planes became unspecified (R23, U7): free. -/
opaque Config.unwrittenPacked (era : Nat) (slot : Bool) (b : Nat) : Byte

/-- `slot` from the end of a decode until it is written (R19, U6): free. -/
opaque Config.freeSlot (era : Nat) : Bool

/-- `m` from the end of a decode until it is written (R19, U6): free. -/
opaque Config.freeM (era : Nat) : Bool

/-- `cnt` from the end of a decode until it is written (R19, U6): free. -/
opaque Config.freeCnt (era : Nat) : BitVec 13

/-- `g` from the end of a decode until it is written (R19, U6): free. -/
opaque Config.freeG (era : Nat) : BitVec 2

/-- `k` from the end of a decode until it is written (R19, U6): free. -/
opaque Config.freeK (era : Nat) : BitVec 5

/-- `n` from the end of a decode until it is written (R19, U6): free. -/
opaque Config.freeN (era : Nat) : BitVec 17

/-- `carry` from the end of a decode until it is written (R19, U6): free. -/
opaque Config.freeCarry (era : Nat) : Bool

end Sys2Proof
end

