-- ==== Sys2Proof/Syntax.lean ====
section
/-! DEFINITION. What the machine is told: the code words of the stream and the host command (one constructor per row of
spec/opcode_table.json), where a code word may stand, and the host's accesses. -/

namespace Sys2Proof

/-- Where a code word stands: the parse states of R56, HEADER by its three fields, and the host's CTRL write, which
is not part of the stream (R64). -/
inductive ParseState where
  /-- HEADER, before WIDTH1 -/
  | width1
  /-- HEADER, before WIDTH2 -/
  | width2
  /-- HEADER, before ORDER -/
  | order
  /-- PLANE_START, before PMODE -/
  | planeStart
  /-- LITERAL, before a literal group -/
  | literal
  /-- RUN, before a run code -/
  | run
  /-- MODE, before the mode code -/
  | mode
  /-- a 32-bit host write to CTRL (format CTRL_WRITE) -/
  | ctrlWrite
deriving DecidableEq, Repr

/-- The code words (R57, R64) and the START command (R110). Every operand has exactly the width of its field. -/
inductive Instr where
  /-- HDR.WIDTH1 `wwww` -/
  | hdrWidth1 (w : BitVec 4)
  /-- HDR.WIDTH2 `vvvv` -/
  | hdrWidth2 (v : BitVec 4)
  /-- HDR.ORDER `o` -/
  | hdrOrder (o : Bool)
  /-- PMODE.RUN `0` -/
  | pmodeRun
  /-- PMODE.LIT `1` -/
  | pmodeLit
  /-- LIT.END `00` -/
  | litEnd
  /-- LIT.1 `01` -/
  | lit1
  /-- LIT.2 `10` -/
  | lit2
  /-- LIT.3 `11` -/
  | lit3
  /-- RUN.K0: 0 one bits, a zero bit, 1 extra bits -/
  | runK0 (x : BitVec 1)
  /-- RUN.K1: 1 one bits, a zero bit, 2 extra bits -/
  | runK1 (x : BitVec 2)
  /-- RUN.K2: 2 one bits, a zero bit, 3 extra bits -/
  | runK2 (x : BitVec 3)
  /-- RUN.K3: 3 one bits, a zero bit, 4 extra bits -/
  | runK3 (x : BitVec 4)
  /-- RUN.K4: 4 one bits, a zero bit, 5 extra bits -/
  | runK4 (x : BitVec 5)
  /-- RUN.K5: 5 one bits, a zero bit, 6 extra bits -/
  | runK5 (x : BitVec 6)
  /-- RUN.K6: 6 one bits, a zero bit, 7 extra bits -/
  | runK6 (x : BitVec 7)
  /-- RUN.K7: 7 one bits, a zero bit, 8 extra bits -/
  | runK7 (x : BitVec 8)
  /-- RUN.K8: 8 one bits, a zero bit, 9 extra bits -/
  | runK8 (x : BitVec 9)
  /-- RUN.K9: 9 one bits, a zero bit, 10 extra bits -/
  | runK9 (x : BitVec 10)
  /-- RUN.K10: 10 one bits, a zero bit, 11 extra bits -/
  | runK10 (x : BitVec 11)
  /-- RUN.K11: 11 one bits, a zero bit, 12 extra bits -/
  | runK11 (x : BitVec 12)
  /-- RUN.K12: 12 one bits, a zero bit, 13 extra bits -/
  | runK12 (x : BitVec 13)
  /-- RUN.K13: 13 one bits, a zero bit, 14 extra bits -/
  | runK13 (x : BitVec 14)
  /-- RUN.K14: 14 one bits, a zero bit, 15 extra bits -/
  | runK14 (x : BitVec 15)
  /-- RUN.K15: 15 one bits, a zero bit, 16 extra bits -/
  | runK15 (x : BitVec 16)
  /-- RUN.INVALID: sixteen one bits -/
  | runInvalid
  /-- MODE.0 `0` -/
  | mode0
  /-- MODE.1 `10` -/
  | mode1
  /-- MODE.2 `11` -/
  | mode2
  /-- CMD.START: a CTRL write with bit 0 set; `x` is its reserved bits 31:1 -/
  | cmdStart (x : BitVec 31)
deriving DecidableEq, Repr

/-- A host access (R36, R45 to R47). `bytes` is its width in bytes; `off` and `a` are addresses of the space named. -/
inductive Access where
  | regRead (bytes off : Nat)
  | regWrite (bytes off : Nat) (v : Word)
  | inRead (bytes a : Nat)
  | inWrite (bytes a : Nat) (v : Byte)
  | outRead (bytes a : Nat)
  | outWrite (bytes a : Nat) (v : Byte)
deriving DecidableEq, Repr

/-- What happens next, as seen from outside the engine (R13, R123, R138). -/
inductive Event where
  /-- the host performs an access -/
  | access (a : Access)
  /-- the reset input -/
  | reset
  /-- the engine takes a step -/
  | engine
deriving DecidableEq, Repr

end Sys2Proof
end

