-- ==== Sys2Proof/WellFormed.lean ====
section
/-! DEFINITION. Well-formedness: every operand of a code word has its field's width by its type, so the checks are those
of the host's accesses (R45 to R47). -/

namespace Sys2Proof

/-- A code word or command: nothing to check, since each operand is a bit vector of exactly its field's width (R57) and
every value of every field is encodable (R65). -/
def Instr.wf : Instr → Bool
  | _ => true

/-- A register access is 32 bits wide, at a multiple of 4, inside the window (R45). -/
def regAccessOk (bytes off : Nat) : Bool :=
  bytes == 4 && off % 4 == 0 && decide (off < 32)

/-- An IN access is one byte wide, inside the input memory (R46). -/
def inAccessOk (bytes a : Nat) : Bool :=
  bytes == 1 && decide (a < Config.inMemBytes)

/-- An OUT access is one byte wide, inside the output memory (R47). -/
def outAccessOk (bytes a : Nat) : Bool :=
  bytes == 1 && decide (a < Config.outMemBytes)

/-- The accesses of the interface; every other one is refused (R45, R46, R47, U8, U9). -/
def Access.wf : Access → Bool
  | .regRead bytes off => regAccessOk bytes off
  | .regWrite bytes off _ => regAccessOk bytes off
  | .inRead bytes a => inAccessOk bytes a
  | .inWrite bytes a _ => inAccessOk bytes a
  | .outRead bytes a => outAccessOk bytes a
  | .outWrite bytes a _ => outAccessOk bytes a

end Sys2Proof
end

