-- ==== Sys2Proof/Decode.lean ====
section
/-! DEFINITION. The decoder and the encoder of the code words (30_encoding.md), over the bits in stream order: the
leftmost bit of a list is consumed first (R9, R41). The decoder is total and rejects by name. Then the stream notation of
R68 and R69: statements to bytes. -/

namespace Sys2Proof

/-- Why the decoder gives no instruction. -/
inductive Reject where
  /-- the bits end before the code word does (R65, OutOfData) -/
  | endOfStream
  /-- a CTRL write with bit 0 clear is no command (R28) -/
  | noCommand
  /-- a prefix count above 15; `takeUnary` never gives one (R72) -/
  | prefixTooLong
deriving DecidableEq, Repr

/-- The decoder's answer: an instruction with the bits after it, or a rejection. -/
inductive Decoded where
  | code (i : Instr) (rest : List Bool)
  | reject (why : Reject)
deriving DecidableEq, Repr

/-- The outcome of reading a run prefix (R72). -/
inductive Prefix where
  /-- `k` one bits and a zero bit -/
  | count (k : Nat)
  /-- sixteen one bits -/
  | invalid
deriving DecidableEq, Repr

/-- ReadInt over a list of bits (R71): the first bit is the most significant (R42). -/
def takeInt : (n : Nat) → List Bool → Option (BitVec n × List Bool)
  | 0, bs => some (0#0, bs)
  | _ + 1, [] => none
  | n + 1, b :: bs => (takeInt n bs).map fun p => (BitVec.cons b p.1, p.2)

/-- ReadUnary over a list of bits, `k` one bits having been read (R72): the check is eager, at the sixteenth one bit. -/
def takeUnary (k : Nat) : List Bool → Option (Prefix × List Bool)
  | [] => none
  | false :: bs => some (.count k, bs)
  | true :: bs => if k + 1 = 16 then some (.invalid, bs) else takeUnary (k + 1) bs

/-- A code word that is one field of `n` bits. -/
def decodeField (n : Nat) (mk : BitVec n → Instr) (bits : List Bool) : Decoded :=
  match takeInt n bits with
  | some (v, rest) => .code (mk v) rest
  | none => .reject .endOfStream

/-- The literal group of value `g` (R61). -/
def literalGroup (g : BitVec 2) : Instr :=
  if g = 0 then .litEnd else if g = 1 then .lit1 else if g = 2 then .lit2 else .lit3

/-- The extra bits of a run code whose prefix counted `k` (R62). -/
def decodeExtra (k : Nat) (bits : List Bool) : Decoded :=
  match k with
  | 0 => decodeField 1 .runK0 bits
  | 1 => decodeField 2 .runK1 bits
  | 2 => decodeField 3 .runK2 bits
  | 3 => decodeField 4 .runK3 bits
  | 4 => decodeField 5 .runK4 bits
  | 5 => decodeField 6 .runK5 bits
  | 6 => decodeField 7 .runK6 bits
  | 7 => decodeField 8 .runK7 bits
  | 8 => decodeField 9 .runK8 bits
  | 9 => decodeField 10 .runK9 bits
  | 10 => decodeField 11 .runK10 bits
  | 11 => decodeField 12 .runK11 bits
  | 12 => decodeField 13 .runK12 bits
  | 13 => decodeField 14 .runK13 bits
  | 14 => decodeField 15 .runK14 bits
  | 15 => decodeField 16 .runK15 bits
  | _ => .reject .prefixTooLong

/-- A run code (R62), or sixteen one bits (R83). -/
def decodeRun (bits : List Bool) : Decoded :=
  match takeUnary 0 bits with
  | none => .reject .endOfStream
  | some (.invalid, rest) => .code .runInvalid rest
  | some (.count k, rest) => decodeExtra k rest

/-- A mode code: one bit, and a second one only after a one bit (R63). -/
def decodeMode : List Bool → Decoded
  | [] => .reject .endOfStream
  | false :: rest => .code .mode0 rest
  | [true] => .reject .endOfStream
  | true :: false :: rest => .code .mode1 rest
  | true :: true :: rest => .code .mode2 rest

/-- A one-bit code word (R59, R60). -/
def decodeBit (mk : Bool → Instr) : List Bool → Decoded
  | [] => .reject .endOfStream
  | b :: rest => .code (mk b) rest

/-- The START command: bit 0 of a 32-bit write to CTRL, the last bit of the word, is set (R28, R110). -/
def decodeCtrl (bits : List Bool) : Decoded :=
  match takeInt 32 bits with
  | none => .reject .endOfStream
  | some (v, rest) => if v.getLsbD 0 then .code (.cmdStart (v.extractLsb' 1 31)) rest else .reject .noCommand

/-- The code word that stands at the front of the bits in a parse state (R56, R57, R67). -/
def decode (p : ParseState) (bits : List Bool) : Decoded :=
  match p with
  | .width1 => decodeField 4 .hdrWidth1 bits
  | .width2 => decodeField 4 .hdrWidth2 bits
  | .order => decodeBit .hdrOrder bits
  | .planeStart => decodeBit (fun m => if m then .pmodeLit else .pmodeRun) bits
  | .literal => decodeField 2 literalGroup bits
  | .run => decodeRun bits
  | .mode => decodeMode bits
  | .ctrlWrite => decodeCtrl bits

/-- The bits of a field, most significant first (R42). -/
def bitsOf : {n : Nat} → BitVec n → List Bool
  | 0, _ => []
  | n + 1, v => v.msb :: bitsOf (v.setWidth n)

/-- The bits of the run code with prefix count `k` and extra value `x` (R62). -/
def encodeRun {n : Nat} (k : Nat) (x : BitVec n) : List Bool :=
  List.replicate k true ++ false :: bitsOf x

/-- The bits of an instruction, in stream order (R57); of the START command, the CTRL word with bit 31 leftmost. -/
def encode : Instr → List Bool
  | .hdrWidth1 w => bitsOf w
  | .hdrWidth2 v => bitsOf v
  | .hdrOrder o => [o]
  | .pmodeRun => [false]
  | .pmodeLit => [true]
  | .litEnd => [false, false]
  | .lit1 => [false, true]
  | .lit2 => [true, false]
  | .lit3 => [true, true]
  | .runK0 x => encodeRun 0 x
  | .runK1 x => encodeRun 1 x
  | .runK2 x => encodeRun 2 x
  | .runK3 x => encodeRun 3 x
  | .runK4 x => encodeRun 4 x
  | .runK5 x => encodeRun 5 x
  | .runK6 x => encodeRun 6 x
  | .runK7 x => encodeRun 7 x
  | .runK8 x => encodeRun 8 x
  | .runK9 x => encodeRun 9 x
  | .runK10 x => encodeRun 10 x
  | .runK11 x => encodeRun 11 x
  | .runK12 x => encodeRun 12 x
  | .runK13 x => encodeRun 13 x
  | .runK14 x => encodeRun 14 x
  | .runK15 x => encodeRun 15 x
  | .runInvalid => List.replicate 16 true
  | .mode0 => [false]
  | .mode1 => [true, false]
  | .mode2 => [true, true]
  | .cmdStart x => bitsOf x ++ [true]

/-- Where an instruction stands (R57, R64). -/
def Instr.place : Instr → ParseState
  | .hdrWidth1 _ => .width1
  | .hdrWidth2 _ => .width2
  | .hdrOrder _ => .order
  | .pmodeRun => .planeStart
  | .pmodeLit => .planeStart
  | .litEnd => .literal
  | .lit1 => .literal
  | .lit2 => .literal
  | .lit3 => .literal
  | .runK0 _ => .run
  | .runK1 _ => .run
  | .runK2 _ => .run
  | .runK3 _ => .run
  | .runK4 _ => .run
  | .runK5 _ => .run
  | .runK6 _ => .run
  | .runK7 _ => .run
  | .runK8 _ => .run
  | .runK9 _ => .run
  | .runK10 _ => .run
  | .runK11 _ => .run
  | .runK12 _ => .run
  | .runK13 _ => .run
  | .runK14 _ => .run
  | .runK15 _ => .run
  | .runInvalid => .run
  | .mode0 => .mode
  | .mode1 => .mode
  | .mode2 => .mode
  | .cmdStart _ => .ctrlWrite

/-- The length of an instruction in bits, the column "length" of R57. -/
def Instr.codeLength : Instr → Nat
  | .hdrWidth1 _ => 4
  | .hdrWidth2 _ => 4
  | .hdrOrder _ => 1
  | .pmodeRun => 1
  | .pmodeLit => 1
  | .litEnd => 2
  | .lit1 => 2
  | .lit2 => 2
  | .lit3 => 2
  | .runK0 _ => 2
  | .runK1 _ => 4
  | .runK2 _ => 6
  | .runK3 _ => 8
  | .runK4 _ => 10
  | .runK5 _ => 12
  | .runK6 _ => 14
  | .runK7 _ => 16
  | .runK8 _ => 18
  | .runK9 _ => 20
  | .runK10 _ => 22
  | .runK11 _ => 24
  | .runK12 _ => 26
  | .runK13 _ => 28
  | .runK14 _ => 30
  | .runK15 _ => 32
  | .runInvalid => 16
  | .mode0 => 1
  | .mode1 => 2
  | .mode2 => 2
  | .cmdStart _ => 32

/-- The low `len` bits of a number, most significant first. -/
def bitsOfNat (len w : Nat) : List Bool := bitsOf (BitVec.ofNat len w)

/-- Whether a number, written with no leading zeros, is a run code with prefix count 2 or more (R62) of `nbits` bits, or
of `nbits` bits once rounded up to whole bytes. -/
def isRunWord (nbits w : Nat) : Bool :=
  let size := Nat.log2 w + 1
  let k := size / 2 - 1
  (nbits == size || nbits == (size + 7) / 8 * 8) && size % 2 == 0 && decide (2 ≤ k) && decide (k ≤ 15) && w / 2 ^ (k + 1) == 2 ^ (k + 1) - 2

/-- DESIGN CHOICE (log 12): the parse state and the length of the instruction a table word stands for. A code word's bits
do not say which it is (R56), so short words are taken at the first parse state they fit. -/
def tablePlace (nbits w : Nat) : ParseState × Nat :=
  if nbits = 1 then (.order, 1)
  else if nbits = 2 then (.literal, 2)
  else if w = 65535 && nbits == 16 then (.run, 16)
  else if isRunWord nbits w then (.run, Nat.log2 w + 1)
  else if nbits = 32 then (.ctrlWrite, 32)
  else if w < 16 then (.width1, 4)
  else (.run, nbits)

/-- The instruction the decoder reads from the bits of a table word (`w` is one number, its top bit consumed first). -/
def decodeTableWord (nbits w : Nat) : Option Instr :=
  match decode (tablePlace nbits w).1 (bitsOfNat (tablePlace nbits w).2 w) with
  | .code i [] => some i
  | _ => none

/-! ### The stream notation (R68, R69) -/

/-- A statement of the notation (R68): a code word, or bits given literally (`BITS`). -/
inductive Stmt where
  | code (i : Instr)
  | bits (bs : List Bool)
deriving DecidableEq, Repr

/-- The bits a statement emits (R68). -/
def emit : Stmt → List Bool
  | .code i => encode i
  | .bits bs => bs

/-- Bits packed into bytes, first bit in bit 7 (R41), with zero bits up to the next byte boundary (R68). -/
def packBits : List Bool → List Byte
  | [] => []
  | b7 :: b6 :: b5 :: b4 :: b3 :: b2 :: b1 :: b0 :: rest =>
    (BitVec.ofBool b7 ++ BitVec.ofBool b6 ++ BitVec.ofBool b5 ++ BitVec.ofBool b4 ++ BitVec.ofBool b3
      ++ BitVec.ofBool b2 ++ BitVec.ofBool b1 ++ BitVec.ofBool b0) :: packBits rest
  | short =>
    match takeInt 8 (short ++ List.replicate 8 false) with
    | some (v, _) => [v]
    | none => []

/-- The bytes of a stream (R68); their count is the value for IN_LEN. -/
def assemble (ss : List Stmt) : List Byte := packBits (ss.flatMap emit)

/-- The prefix count of the run code of length `n` (R69): the `k` with `2^(k+1) - 1 <= n <= 2^(k+2) - 2`. -/
def runPrefix (n : Nat) : Nat := Nat.log2 (n + 1) - 1

/-- The pseudo-statement `RUN n`, `n` in 1..131070 (R69): the run code of that length. -/
def runOf (n : Nat) : Instr :=
  let x := n - (2 ^ (runPrefix n + 1) - 1)
  match runPrefix n with
  | 0 => .runK0 (BitVec.ofNat 1 x)
  | 1 => .runK1 (BitVec.ofNat 2 x)
  | 2 => .runK2 (BitVec.ofNat 3 x)
  | 3 => .runK3 (BitVec.ofNat 4 x)
  | 4 => .runK4 (BitVec.ofNat 5 x)
  | 5 => .runK5 (BitVec.ofNat 6 x)
  | 6 => .runK6 (BitVec.ofNat 7 x)
  | 7 => .runK7 (BitVec.ofNat 8 x)
  | 8 => .runK8 (BitVec.ofNat 9 x)
  | 9 => .runK9 (BitVec.ofNat 10 x)
  | 10 => .runK10 (BitVec.ofNat 11 x)
  | 11 => .runK11 (BitVec.ofNat 12 x)
  | 12 => .runK12 (BitVec.ofNat 13 x)
  | 13 => .runK13 (BitVec.ofNat 14 x)
  | 14 => .runK14 (BitVec.ofNat 15 x)
  | _ => .runK15 (BitVec.ofNat 16 x)

/-- The pseudo-statement `HEADER w o` (R69). -/
def headerOf (w : BitVec 4) (o : Bool) : List Stmt :=
  [.code (.hdrWidth1 w), .code (.hdrWidth2 w), .code (.hdrOrder o)]

end Sys2Proof
end

