-- ==== Sys2Proof/Machine/State.lean ====
section
/-! DEFINITION. The state of the engine and of what surrounds it (10_state.md), as plain data; why a step stops; and the
state after reset (R35). -/

namespace Sys2Proof.Machine

/-- STATUS.STATE (R29). -/
inductive RunState where
  | idle
  | busy
  | done
  | error
deriving DecidableEq, Repr

/-- STATUS.ERR, the error taxonomy with NONE (R29, R124). -/
inductive ErrCode where
  | none
  | widthMismatch
  | invalidRunLength
  | outOfData
deriving DecidableEq, Repr

/-- The fields of HEADER in stream order (R55). -/
inductive HeaderField where
  | width1
  | width2
  | order
deriving DecidableEq, Repr

/-- The position inside a plane decode (R75): before PMODE, or in the sub-pass loop and what follows it. -/
inductive PlanePhase where
  | start
  | body
deriving DecidableEq, Repr

/-- The sequencer stage (R112), with the position inside HEADER, PLANE_A and PLANE_B (log 16). -/
inductive Stage where
  | idle
  | header (f : HeaderField)
  | planeA (p : PlanePhase)
  | mode
  | planeB (p : PlanePhase)
  | merge
  | output
  | finish
deriving DecidableEq, Repr

/-- Why the machine stops. The engine itself has no fault (93_implementation_defined.md section 1): both constructors
name states that no run reaches, and stopping there is safe. -/
inductive Fault where
  /-- raised by an engine step while STATUS is BUSY and no stage is in progress: no rule gives a step. Safe. -/
  | noRule
  /-- raised by the MERGE stage when HDR.MODE is 3, which no mode code gives (R63, R103). Safe. -/
  | modeThree
deriving DecidableEq, Repr

/-- Why the model gives no meaning. -/
inductive Refusal where
  /-- raised by an arm of `exec` whose instruction has no meaning yet. Safe. -/
  | notModelled (mnemonic : String)
  /-- raised by a code word executed where it does not stand (R56); no step does that. Safe. -/
  | outOfParseState
  /-- raised by a host register access that is not an aligned 32-bit access inside the window (R45, U8). Safe. -/
  | registerAccess
  /-- raised by a host access to IN wider than a byte or out of range (R46, U9). Safe. -/
  | inAccess
  /-- raised by a host access to OUT wider than a byte or out of range (R47, U9). Safe. -/
  | outAccess
deriving DecidableEq, Repr

/-- The whole machine. -/
structure State where
  /-- STATUS.STATE (R29) -/
  status : RunState
  /-- STATUS.ERR (R29) -/
  err : ErrCode
  /-- IN_LEN (R30) -/
  inLen : Word
  /-- OUT_COUNT (R31) -/
  outCount : Word
  /-- HDR.WIDTH and the decode's `W` (R18, R32, R113) -/
  width1 : BitVec 4
  /-- HDR.WIDTH2 (R18, R32) -/
  width2 : BitVec 4
  /-- HDR.ORDER (R18, R32) -/
  order : Bool
  /-- HDR.MODE (R18, R32) -/
  mode : BitVec 2
  /-- CUR_BYTE (R33) -/
  curByte : Word
  /-- CUR_BIT (R33) -/
  curBit : BitVec 3
  /-- the cursor's byte (R15) -/
  byteIndex : Word
  /-- the cursor's bit (R15) -/
  bitIndex : BitVec 3
  /-- the sequencer stage (R19, R112) -/
  stage : Stage
  /-- the plane slot being filled (R19) -/
  slot : Bool
  /-- the sub-pass kind, true for literal (R19, R20) -/
  m : Bool
  /-- raw units produced in the current plane (R19) -/
  cnt : BitVec 13
  /-- the last literal group (R19) -/
  g : BitVec 2
  /-- the unary prefix count (R19) -/
  k : BitVec 5
  /-- the run length (R19) -/
  n : BitVec 17
  /-- the Gray transform's state (R19, R20) -/
  carry : Bool
  /-- RAW[0] (R21) -/
  raw0 : Cells RawUnit
  /-- RAW[1] (R21) -/
  raw1 : Cells RawUnit
  /-- P[0] (R22) -/
  packed0 : Memory
  /-- P[1] (R22) -/
  packed1 : Memory
  /-- IN (R36) -/
  inMem : Memory
  /-- OUT (R36) -/
  outMem : Memory
  /-- the model's own: what happens next, in order (log 8) -/
  pending : List Event
  /-- the model's own: the values the host has read, newest first (log 9) -/
  seen : List Word
  /-- the model's own: how many unspecified values the host has been given (log 4) -/
  draws : Nat
  /-- the model's own: how often working registers and planes became unspecified (log 6) -/
  era : Nat
  /-- the model's own: how often OUT became unspecified (log 3) -/
  outEra : Nat
deriving DecidableEq, Repr

/-- The machine right after power-up and reset (R35, R138). The working registers' zeros are a DESIGN CHOICE (log 5). -/
def State.reset : State where
  status := .idle
  err := .none
  inLen := 0
  outCount := 0
  width1 := 0
  width2 := 0
  order := false
  mode := 0
  curByte := 0
  curBit := 7
  byteIndex := 0
  bitIndex := 7
  stage := .idle
  slot := false
  m := false
  cnt := 0
  g := 0
  k := 0
  n := 0
  carry := false
  raw0 := []
  raw1 := []
  packed0 := []
  packed1 := []
  inMem := []
  outMem := []
  pending := []
  seen := []
  draws := 0
  era := 0
  outEra := 0

/-- What a step or a meaning answers. -/
abbrev Result := Host.Outcome State Fault Refusal

end Sys2Proof.Machine
end

