-- ==== Sys2Proof/Machine/Operands.lean ====
section
/-! DEFINITION. Sizes derived from the width (R8), the run-length table (R24) and the run length of a run code (R62). -/

namespace Sys2Proof.Machine

/-- `W`, the image width in tiles (R8, R18). -/
def State.w (s : State) : Nat := s.width1.toNat

/-- `LEN(W)`, the raw units of a plane (R8). -/
def lenUnits (w : Nat) : Nat := w * w * 32

/-- `S(W)`, the packed bytes of a plane (R8). -/
def packedBytes (w : Nat) : Nat := w * w * 8

/-- `OUT_BYTES(W)`, the bytes of the output (R8). -/
def outBytes (w : Nat) : Nat := w * w * 16

/-- RUNBASE (R24). -/
def runBaseTable : List (BitVec 17) :=
  [1, 3, 7, 15, 31, 63, 127, 255, 511, 1023, 2047, 4095, 8191, 16383, 32767, 65535]

/-- RUNBASE[k], for `k` in 0..15 (R24). -/
def runBase (k : Nat) : BitVec 17 := runBaseTable.getD k 0

/-- The run length `n = RUNBASE[k] + x` of a run code, 17 bits (R62, R81). -/
def runLength {e : Nat} (k : Nat) (x : BitVec e) : BitVec 17 := runBase k + x.setWidth 17

/-- The units a run appends: `min(n, LEN - cnt)` (R81, R82). -/
def clampRun (n : BitVec 17) (len cnt : Nat) : Nat := min n.toNat (len - cnt)

/-- The ERR code of an error (R29, R124). -/
def ErrCode.code : ErrCode → BitVec 2
  | .none => 0
  | .widthMismatch => 1
  | .invalidRunLength => 2
  | .outOfData => 3

/-- The STATE code (R29). -/
def RunState.code : RunState → BitVec 2
  | .idle => 0
  | .busy => 1
  | .done => 2
  | .error => 3

/-- The STATUS register: STATE in bits 1:0, ERR in bits 3:2, the rest 0 (R29). -/
def State.statusWord (s : State) : Word := 0#28 ++ s.err.code ++ s.status.code

/-- The HDR register: WIDTH 3:0, WIDTH2 7:4, ORDER 8, MODE 10:9, the rest 0 (R32). -/
def State.hdrWord (s : State) : Word :=
  0#21 ++ s.mode ++ BitVec.ofBool s.order ++ s.width2 ++ s.width1

end Sys2Proof.Machine
end

