-- ==== Sys2Proof/Machine/Flags.lean ====
section
/-! DEFINITION. The two state flags (R20): `m`, inverted after each sub-pass, and `carry`, the state of the Gray table
decode; the table itself (R25) and the nibble and byte steps (R90, R91). -/

namespace Sys2Proof.Machine

/-- GRAY[0] (R25). -/
def grayRow0 : List Nibble :=
  [0x0, 0x1, 0x3, 0x2, 0x7, 0x6, 0x4, 0x5, 0xF, 0xE, 0xC, 0xD, 0x8, 0x9, 0xB, 0xA]

/-- GRAY[1] (R25). -/
def grayRow1 : List Nibble :=
  [0xF, 0xE, 0xC, 0xD, 0x8, 0x9, 0xB, 0xA, 0x0, 0x1, 0x3, 0x2, 0x7, 0x6, 0x4, 0x5]

/-- GRAY[carry][v] (R25). -/
def gray (carry : Bool) (v : Nibble) : Nibble :=
  (if carry then grayRow1 else grayRow0).getD v.toNat 0

/-- GrayNibble (R90): the decoded nibble and the new carry, its low bit. -/
def grayNibble (carry : Bool) (v : Nibble) : Nibble × Bool :=
  (gray carry v, (gray carry v).getLsbD 0)

/-- GrayByte (R91): the high nibble first, then the low one under the carry the first leaves. -/
def grayByte (carry : Bool) (b : Byte) : Byte × Bool :=
  let hi := grayNibble carry (b.extractLsb' 4 4)
  let lo := grayNibble hi.2 (b.extractLsb' 0 4)
  (hi.1 ++ lo.1, lo.2)

/-- GrayEncodeByte (R94), the inverse of a byte step: the differential code of `d` under the low bit `c` of the decoded
byte above it. -/
def grayEncodeByte (c : Bool) (d : Byte) : Byte :=
  d ^^^ ((d >>> 1) ||| (BitVec.ofBool c ++ 0#7))

/-- The sub-pass kind after a sub-pass: `m` inverted (R77). -/
def State.nextSubPass (s : State) : State := { s with m := !s.m }

end Sys2Proof.Machine
end

