-- ==== Sys2Proof/Machine/Ops.lean ====
section
/-! DEFINITION. The named operations: cells, the bit reader's three operations (R70 to R72), the engine's and the host's
accesses to IN, OUT and the planes, the parse state, and what starts, ends and aborts a decode. -/

namespace Sys2Proof

/-- The written value at an address, `none` where nothing has been written. -/
def Cells.read? {α : Type} (a : Nat) : Cells α → Option α
  | [] => none
  | (b, v) :: rest => if a = b then some v else Cells.read? a rest

/-- Write a value at an address, keeping the addresses strictly rising. -/
def Cells.write {α : Type} (a : Nat) (v : α) : Cells α → Cells α
  | [] => [(a, v)]
  | (b, u) :: rest =>
    if a < b then (a, v) :: (b, u) :: rest
    else if a = b then (a, v) :: rest
    else (b, u) :: Cells.write a v rest

/-- The canonical form of cells: addresses strictly rising. An unlisted address holds no written value, so no entry can
equal what an unlisted address holds. -/
def Cells.wf {α : Type} : Cells α → Bool
  | [] => true
  | [_] => true
  | (a, _) :: (b, v) :: rest => decide (a < b) && Cells.wf ((b, v) :: rest)

/-- The canonical form of a byte memory. -/
abbrev Memory.wf (m : Memory) : Bool := Cells.wf m

namespace Machine

/-- Run a body for `i = 0, 1, ..., n - 1`, in that order (R10). -/
def loop (n : Nat) (body : Nat → State → State) (s : State) : State :=
  match n with
  | 0 => s
  | n + 1 => body n (loop n body s)

/-! ### IN, OUT and the planes -/

/-- The byte of IN at an address (R38, R46): the power-up byte where nothing has been written (U4). -/
def State.inByte (s : State) (a : Nat) : Byte := (Cells.read? a s.inMem).getD (Config.powerUpIn a)

/-- Store a byte of IN (R46). -/
def State.writeIn (s : State) (a : Nat) (v : Byte) : State := { s with inMem := Cells.write a v s.inMem }

/-- The byte of OUT at an address (R47): free where nothing has been written in this era of OUT (U3, U4). -/
def State.outByte (s : State) (a : Nat) : Byte := (Cells.read? a s.outMem).getD (Config.unwrittenOut s.outEra a)

/-- MemWrite(OUT, a, 1, v) (R39). -/
def State.writeOut (s : State) (a : Nat) (v : Byte) : State := { s with outMem := Cells.write a v s.outMem }

/-- RAW[slot] (R21). -/
def State.rawCells (s : State) (slot : Bool) : Cells RawUnit := if slot then s.raw1 else s.raw0

/-- RAW[slot][i] (R21): free where this era's decode has written nothing. -/
def State.rawUnit (s : State) (slot : Bool) (i : Nat) : RawUnit :=
  (Cells.read? i (s.rawCells slot)).getD (Config.unwrittenRaw s.era slot i)

/-- RAW[slot][i] <- v (R21). -/
def State.writeRaw (s : State) (slot : Bool) (i : Nat) (v : RawUnit) : State :=
  { s with
    raw0 := if slot then s.raw0 else Cells.write i v s.raw0
    raw1 := if slot then Cells.write i v s.raw1 else s.raw1 }

/-- P[slot] (R22). -/
def State.packedCells (s : State) (slot : Bool) : Memory := if slot then s.packed1 else s.packed0

/-- P[slot][b] (R22): free where this era's decode has written nothing. -/
def State.packedByte (s : State) (slot : Bool) (b : Nat) : Byte :=
  (Cells.read? b (s.packedCells slot)).getD (Config.unwrittenPacked s.era slot b)

/-- P[slot][b] <- v (R22). -/
def State.writePacked (s : State) (slot : Bool) (b : Nat) (v : Byte) : State :=
  { s with
    packed0 := if slot then s.packed0 else Cells.write b v s.packed0
    packed1 := if slot then Cells.write b v s.packed1 else s.packed1 }

/-! ### The bit reader -/

/-- ReadBit (R70): the next stream bit and the state with the cursor past it, or `none` (OutOfData) with nothing
changed. -/
def State.readBit (s : State) : Option (Bool × State) :=
  if s.inLen.toNat ≤ s.byteIndex.toNat then none
  else
    let bit := (s.inByte s.byteIndex.toNat).getLsbD s.bitIndex.toNat
    if s.bitIndex = 0 then some (bit, { s with bitIndex := 7, byteIndex := s.byteIndex + 1 })
    else some (bit, { s with bitIndex := s.bitIndex - 1 })

/-- The loop of ReadInt (R71), with the value read so far. -/
def State.readIntFrom (value : BitVec 16) : Nat → State → Except ErrCode (BitVec 16) × State
  | 0, s => (.ok value, s)
  | n + 1, s =>
    match s.readBit with
    | none => (.error .outOfData, s)
    | some (b, s') => State.readIntFrom ((value <<< 1) ||| (BitVec.ofBool b).setWidth 16) n s'

/-- ReadInt(n), `n` at most 16 (R71): the value or OutOfData, and the state with the bits consumed. -/
def State.readInt (n : Nat) (s : State) : Except ErrCode (BitVec 16) × State := State.readIntFrom 0 n s

/-- The loop of ReadUnary (R72): `left` more one bits make the sixteenth. -/
def State.readUnaryFrom : Nat → State → Except ErrCode (BitVec 5) × State
  | 0, s => (.error .invalidRunLength, s)
  | left + 1, s =>
    match s.readBit with
    | none => (.error .outOfData, s)
    | some (false, s') => (.ok s'.k, s')
    | some (true, s') => State.readUnaryFrom left { s' with k := s'.k + 1 }

/-- ReadUnary (R72): the prefix count, which it also leaves in `k`, or an error. -/
def State.readUnary (s : State) : Except ErrCode (BitVec 5) × State := State.readUnaryFrom 16 { s with k := 0 }

/-- The next bits of the stream, at most `n`, fewer where the stream ends (repeated ReadBit, R70). -/
def State.peekBits : Nat → State → List Bool
  | 0, _ => []
  | n + 1, s =>
    match s.readBit with
    | none => []
    | some (b, s') => b :: State.peekBits n s'

/-- The state with the cursor `n` bits further, or at the end of the stream (repeated ReadBit, R70). -/
def State.consume : Nat → State → State
  | 0, s => s
  | n + 1, s =>
    match s.readBit with
    | none => s
    | some (_, s') => State.consume n s'

/-! ### The parse state -/

/-- The code word a plane's sub-pass loop reads next, `none` when the plane is full (R77, R78, R81). -/
def State.bodyParse (s : State) : Option ParseState :=
  if s.cnt.toNat < lenUnits s.w then some (if s.m then .literal else .run) else none

/-- The parse state (R56): which code word the engine reads next, `none` when it is not BUSY or its stage reads no
stream (R112). -/
def State.parse (s : State) : Option ParseState :=
  if s.status = .busy then
    match s.stage with
    | .header .width1 => some .width1
    | .header .width2 => some .width2
    | .header .order => some .order
    | .planeA .start => some .planeStart
    | .planeA .body => s.bodyParse
    | .mode => some .mode
    | .planeB .start => some .planeStart
    | .planeB .body => s.bodyParse
    | _ => none
  else none

/-- A code word acts only where it stands (R56); elsewhere it has no meaning (log 13). -/
def State.inPlace (s : State) (p : ParseState) (r : Result) : Result :=
  if s.parse = some p then r else .refused .outOfParseState

/-! ### Starting and ending a decode -/

/-- The working registers and the plane buffers become unspecified (R19, R23, U6, U7): free values of a new era. -/
def State.forget (s : State) : State :=
  { s with
    era := s.era + 1
    slot := Config.freeSlot (s.era + 1)
    m := Config.freeM (s.era + 1)
    cnt := Config.freeCnt (s.era + 1)
    g := Config.freeG (s.era + 1)
    k := Config.freeK (s.era + 1)
    n := Config.freeN (s.era + 1)
    carry := Config.freeCarry (s.era + 1)
    raw0 := []
    raw1 := []
    packed0 := []
    packed1 := [] }

/-- Abort(E) (R125): the one way an error is taken. The cursor is saved in CUR_BYTE and CUR_BIT, the cause in
STATUS.ERR, STATUS.STATE becomes ERROR; OUT and HDR stay; planes and working registers are left unspecified. -/
def State.abort (e : ErrCode) (s : State) : State :=
  { s.forget with
    curByte := s.byteIndex
    curBit := s.bitIndex
    outCount := 0
    err := e
    status := .error
    stage := .idle }

/-- FINISH (R120), the last step of a successful decode. -/
def State.finishDecode (s : State) : State :=
  { s.forget with
    outCount := BitVec.ofNat 32 (outBytes s.w)
    curByte := s.byteIndex
    curBit := s.bitIndex
    err := .none
    status := .done
    stage := .idle }

/-- Start() (R110). -/
def State.start (s : State) : State :=
  { s with
    byteIndex := 0
    bitIndex := 7
    outCount := 0
    width1 := 0
    width2 := 0
    order := false
    mode := 0
    err := .none
    status := .busy
    stage := .header .width1 }

/-- The reset input (R138, R35): every register at its reset value, the working registers and planes unspecified, IN
unchanged, OUT unchanged unless the reset came while BUSY, which leaves OUT unspecified (U3). -/
def State.resetInput (s : State) : State :=
  { s.forget with
    status := .idle
    err := .none
    inLen := 0
    outCount := 0
    width1 := 0
    width2 := 0
    order := false
    mode := 0
    curByte := 0
    curBit := 7
    byteIndex := 0
    bitIndex := 7
    stage := .idle
    outMem := if s.status = .busy then [] else s.outMem
    outEra := if s.status = .busy then s.outEra + 1 else s.outEra }

end Machine
end Sys2Proof
end

