-- ==== Sys2Proof/Machine/Command.lean ====
section
/-! DEFINITION. The START command (R110, R111). -/

namespace Sys2Proof.Machine

/-- CMD.START (R110); ignored while BUSY (R111). The reserved bits 31:1 of the write have no effect (R28). -/
def execCmdStart (_reserved : BitVec 31) (s : State) : Result :=
  .next (if s.status = .busy then s else s.start)

end Sys2Proof.Machine
end

