-- ==== Sys2Proof/Machine/Header.lean ====
section
/-! DEFINITION. The HEADER code words: HDR.WIDTH1, HDR.WIDTH2 (R113) and HDR.ORDER (R114, R115). -/

namespace Sys2Proof.Machine

/-- HDR.WIDTH1 (R113): `HDR.WIDTH <- w1`. -/
def execHdrWidth1 (w : BitVec 4) (s : State) : Result :=
  s.inPlace .width1 (.next { s with width1 := w, stage := .header .width2 })

/-- HDR.WIDTH2 (R113): `HDR.WIDTH2 <- w2`, then WidthMismatch if the two fields differ. -/
def execHdrWidth2 (v : BitVec 4) (s : State) : Result :=
  s.inPlace .width2 (.next
    (if v = s.width1 then { s with width2 := v, stage := .header .order }
     else State.abort .widthMismatch { s with width2 := v }))

/-- HDR.ORDER (R114): `HDR.ORDER <- o`; PLANE_A follows, with `slot <- o` (R115). -/
def execHdrOrder (o : Bool) (s : State) : Result :=
  s.inPlace .order (.next { s with order := o, slot := o, stage := .planeA .start })

end Sys2Proof.Machine
end

