-- ==== Sys2Proof/Machine/Mode.lean ====
section
/-! DEFINITION. The mode codes (R63, R116). HDR.MODE selects the MERGE step of R98, R99 or R100, which runs when both
planes are decoded (R112, R118: Machine/Engine.lean). -/

namespace Sys2Proof.Machine

/-- `HDR.MODE <- mode` (R116); PLANE_B follows, with `slot <- o ^ 1` (R117). -/
def State.setMode (s : State) (mode : BitVec 2) : State :=
  { s with mode := mode, slot := !s.order, stage := .planeB .start }

/-- MODE.0 (R116, R98). -/
def execMode0 (s : State) : Result := s.inPlace .mode (.next (s.setMode 0))

/-- MODE.1 (R116, R99). -/
def execMode1 (s : State) : Result := s.inPlace .mode (.next (s.setMode 1))

/-- MODE.2 (R116, R100). -/
def execMode2 (s : State) : Result := s.inPlace .mode (.next (s.setMode 2))

end Sys2Proof.Machine
end

