-- ==== Sys2Proof/Machine/Plane.lean ====
section
/-! DEFINITION. The plane decoder's code words: PMODE (R76), the literal groups (R78 to R80) and the run codes
(R81 to R83). -/

namespace Sys2Proof.Machine

/-- The sub-pass loop of the plane whose PMODE has been read. -/
def Stage.body : Stage → Stage
  | .planeB _ => .planeB .body
  | _ => .planeA .body

/-- The opening of FillPlane (R75, R76): `cnt <- 0`, `m` the PMODE bit. -/
def State.openPlane (s : State) (m : Bool) : State :=
  { s with cnt := 0, m := m, stage := s.stage.body }

/-- PMODE.RUN (R76). -/
def execPmodeRun (s : State) : Result := s.inPlace .planeStart (.next (s.openPlane false))

/-- PMODE.LIT (R76). -/
def execPmodeLit (s : State) : Result := s.inPlace .planeStart (.next (s.openPlane true))

/-- One literal unit (R78): `RAW[slot][cnt] <- g`, `cnt <- cnt + 1`. The unit that fills the plane ends the sub-pass
(R80). -/
def State.appendLiteral (s : State) (g : BitVec 2) : State :=
  { s.writeRaw s.slot s.cnt.toNat g with
    g := g
    cnt := s.cnt + 1
    m := if s.cnt.toNat + 1 = lenUnits s.w then !s.m else s.m }

/-- LIT.END (R79): the sub-pass ends and appends nothing. -/
def execLitEnd (s : State) : Result := s.inPlace .literal (.next { s.nextSubPass with g := 0 })

/-- LIT.1 (R78). -/
def execLit1 (s : State) : Result := s.inPlace .literal (.next (s.appendLiteral 1))

/-- LIT.2 (R78). -/
def execLit2 (s : State) : Result := s.inPlace .literal (.next (s.appendLiteral 2))

/-- LIT.3 (R78). -/
def execLit3 (s : State) : Result := s.inPlace .literal (.next (s.appendLiteral 3))

/-- `RAW[slot][cnt + j] <- 0` for `j` in `[0, a)` (R81). -/
def State.appendZeros (s : State) (a : Nat) : State :=
  loop a (fun j t => t.writeRaw s.slot (s.cnt.toNat + j) 0) s

/-- RunPass (R81) once its code is read: `k`, `n`, the clamped zero units (R82), and the end of the sub-pass (R77). -/
def State.runPass {e : Nat} (s : State) (k : Nat) (x : BitVec e) : State :=
  let a := clampRun (runLength k x) (lenUnits s.w) s.cnt.toNat
  { (s.appendZeros a).nextSubPass with
    k := BitVec.ofNat 5 k
    n := runLength k x
    cnt := s.cnt + BitVec.ofNat 13 a }

/-- RUN.K0 (R81). -/
def execRunK0 (x : BitVec 1) (s : State) : Result := s.inPlace .run (.next (s.runPass 0 x))

/-- RUN.K1 (R81). -/
def execRunK1 (x : BitVec 2) (s : State) : Result := s.inPlace .run (.next (s.runPass 1 x))

/-- RUN.K2 (R81). -/
def execRunK2 (x : BitVec 3) (s : State) : Result := s.inPlace .run (.next (s.runPass 2 x))

/-- RUN.K3 (R81). -/
def execRunK3 (x : BitVec 4) (s : State) : Result := s.inPlace .run (.next (s.runPass 3 x))

/-- RUN.K4 (R81). -/
def execRunK4 (x : BitVec 5) (s : State) : Result := s.inPlace .run (.next (s.runPass 4 x))

/-- RUN.K5 (R81). -/
def execRunK5 (x : BitVec 6) (s : State) : Result := s.inPlace .run (.next (s.runPass 5 x))

/-- RUN.K6 (R81). -/
def execRunK6 (x : BitVec 7) (s : State) : Result := s.inPlace .run (.next (s.runPass 6 x))

/-- RUN.K7 (R81). -/
def execRunK7 (x : BitVec 8) (s : State) : Result := s.inPlace .run (.next (s.runPass 7 x))

/-- RUN.K8 (R81). -/
def execRunK8 (x : BitVec 9) (s : State) : Result := s.inPlace .run (.next (s.runPass 8 x))

/-- RUN.K9 (R81). -/
def execRunK9 (x : BitVec 10) (s : State) : Result := s.inPlace .run (.next (s.runPass 9 x))

/-- RUN.K10 (R81). -/
def execRunK10 (x : BitVec 11) (s : State) : Result := s.inPlace .run (.next (s.runPass 10 x))

/-- RUN.K11 (R81). -/
def execRunK11 (x : BitVec 12) (s : State) : Result := s.inPlace .run (.next (s.runPass 11 x))

/-- RUN.K12 (R81). -/
def execRunK12 (x : BitVec 13) (s : State) : Result := s.inPlace .run (.next (s.runPass 12 x))

/-- RUN.K13 (R81). -/
def execRunK13 (x : BitVec 14) (s : State) : Result := s.inPlace .run (.next (s.runPass 13 x))

/-- RUN.K14 (R81). -/
def execRunK14 (x : BitVec 15) (s : State) : Result := s.inPlace .run (.next (s.runPass 14 x))

/-- RUN.K15 (R81). -/
def execRunK15 (x : BitVec 16) (s : State) : Result := s.inPlace .run (.next (s.runPass 15 x))

/-- RUN.INVALID (R83): the sixteenth one bit raises InvalidRunLength; no unit is appended. -/
def execRunInvalid (s : State) : Result :=
  s.inPlace .run (.next (State.abort .invalidRunLength { s with k := 16 }))

end Sys2Proof.Machine
end

