-- ==== Sys2Proof/Machine/Dispatch.lean ====
section
/-! DEFINITION. One arm per row of spec/opcode_table.json: the meaning of each code word and command. -/

namespace Sys2Proof.Machine

def exec (i : Instr) (s : State) : Host.Outcome State Fault Refusal :=
  match i with
  | .hdrWidth1 w => Sys2Proof.Machine.execHdrWidth1 w s
  | .hdrWidth2 v => Sys2Proof.Machine.execHdrWidth2 v s
  | .hdrOrder o => Sys2Proof.Machine.execHdrOrder o s
  | .pmodeRun => Sys2Proof.Machine.execPmodeRun s
  | .pmodeLit => Sys2Proof.Machine.execPmodeLit s
  | .litEnd => Sys2Proof.Machine.execLitEnd s
  | .lit1 => Sys2Proof.Machine.execLit1 s
  | .lit2 => Sys2Proof.Machine.execLit2 s
  | .lit3 => Sys2Proof.Machine.execLit3 s
  | .runK0 x => Sys2Proof.Machine.execRunK0 x s
  | .runK1 x => Sys2Proof.Machine.execRunK1 x s
  | .runK2 x => Sys2Proof.Machine.execRunK2 x s
  | .runK3 x => Sys2Proof.Machine.execRunK3 x s
  | .runK4 x => Sys2Proof.Machine.execRunK4 x s
  | .runK5 x => Sys2Proof.Machine.execRunK5 x s
  | .runK6 x => Sys2Proof.Machine.execRunK6 x s
  | .runK7 x => Sys2Proof.Machine.execRunK7 x s
  | .runK8 x => Sys2Proof.Machine.execRunK8 x s
  | .runK9 x => Sys2Proof.Machine.execRunK9 x s
  | .runK10 x => Sys2Proof.Machine.execRunK10 x s
  | .runK11 x => Sys2Proof.Machine.execRunK11 x s
  | .runK12 x => Sys2Proof.Machine.execRunK12 x s
  | .runK13 x => Sys2Proof.Machine.execRunK13 x s
  | .runK14 x => Sys2Proof.Machine.execRunK14 x s
  | .runK15 x => Sys2Proof.Machine.execRunK15 x s
  | .runInvalid => Sys2Proof.Machine.execRunInvalid s
  | .mode0 => Sys2Proof.Machine.execMode0 s
  | .mode1 => Sys2Proof.Machine.execMode1 s
  | .mode2 => Sys2Proof.Machine.execMode2 s
  | .cmdStart x => Sys2Proof.Machine.execCmdStart x s

end Sys2Proof.Machine
end

