-- ==== Sys2Proof/Machine/Engine.lean ====
section
/-! DEFINITION. The engine's work that reads no stream: Deinterleave and Pack (R87, R88), the Gray transform (R92), the
plane merger (R98 to R101), the interleave (R104), the tile transposer (R106), and the stages that run them (R112). -/

namespace Sys2Proof.Machine

/-! ### De-interleave and pack -/

/-- Deinterleave (R87): the linear array `ram`, in the order its entries are gathered. -/
def State.deinterleave (s : State) (slot : Bool) : List RawUnit :=
  (List.range s.w).flatMap fun y =>
    (List.range (8 * s.w)).flatMap fun x =>
      (List.range 4).map fun i => s.rawUnit slot ((y * 4 + i) * s.w * 8 + x)

/-- Pack (R88): every four consecutive units become a byte, the first unit in the top bits. -/
def packUnits : List RawUnit → List Byte
  | u0 :: u1 :: u2 :: u3 :: rest => (u0 ++ u1 ++ u2 ++ u3) :: packUnits rest
  | _ => []

/-- `P[slot][b], P[slot][b + 1], ... <- bytes`. -/
def State.writePackedFrom (s : State) (slot : Bool) (b : Nat) : List Byte → State
  | [] => s
  | v :: rest => (s.writePacked slot b v).writePackedFrom slot (b + 1) rest

/-- Deinterleave then Pack (R87, R88), the end of FillPlane (R75). -/
def State.packPlane (s : State) (slot : Bool) : State :=
  s.writePackedFrom slot 0 (packUnits (s.deinterleave slot))

/-! ### The Gray transform -/

/-- `P[slot][b] <- GrayByte(P[slot][b])` (R91). -/
def State.grayAt (s : State) (slot : Bool) (b : Nat) : State :=
  let r := grayByte s.carry (s.packedByte slot b)
  { s.writePacked slot b r.1 with carry := r.2 }

/-- One column of GrayPlane (R92): the carry starts at 0 and runs down the rows. -/
def State.grayColumn (s : State) (slot : Bool) (x : Nat) : State :=
  loop s.w (fun y t => t.grayAt slot (y * (8 * s.w) + x)) { s with carry := false }

/-- GrayPlane (R92). -/
def State.grayPlane (s : State) (slot : Bool) : State :=
  loop (8 * s.w) (fun x t => t.grayColumn slot x) s

/-! ### The plane merger -/

/-- XorPlanes (R101): `P[o^1][b] <- P[o^1][b] ^ P[o][b]`. -/
def State.xorPlanes (s : State) : State :=
  loop (packedBytes s.w)
    (fun b t => t.writePacked (!s.order) b (t.packedByte (!s.order) b ^^^ t.packedByte s.order b)) s

/-- MODE.0's merge (R98). -/
def State.mergeMode0 (s : State) : State := (s.grayPlane false).grayPlane true

/-- MODE.1's merge (R99). -/
def State.mergeMode1 (s : State) : State := (s.grayPlane s.order).xorPlanes

/-- MODE.2's merge (R100). -/
def State.mergeMode2 (s : State) : State := ((s.grayPlane false).grayPlane true).xorPlanes

/-- MERGE (R118). HDR.MODE is never 3 (R103): that state has no rule (log 15). -/
def State.merge (s : State) : Result :=
  if s.mode = 0 then .next { s.mergeMode0 with stage := .output }
  else if s.mode = 1 then .next { s.mergeMode1 with stage := .output }
  else if s.mode = 2 then .next { s.mergeMode2 with stage := .output }
  else .fault .modeThree

/-! ### The output -/

/-- Interleave (R104). -/
def State.interleave (s : State) : State :=
  loop (packedBytes s.w)
    (fun b t => (t.writeOut (2 * b) (t.packedByte false b)).writeOut (2 * b + 1) (t.packedByte true b)) s

/-- Exchange two bytes of OUT (R106). -/
def State.swapOut (s : State) (a b : Nat) : State :=
  (s.writeOut a (s.outByte b)).writeOut b (s.outByte a)

/-- Swap the 16-byte blocks `i` and `j` of OUT (R106). -/
def State.swapBlocks (s : State) (i j : Nat) : State :=
  loop 16 (fun d t => t.swapOut (16 * i + d) (16 * j + d)) s

/-- The block that the swap loop pairs with block `i` (R106): `j = (i*W + i/W) mod T`. -/
def tilePartner (w i : Nat) : Nat := (i * w + i / w) % (w * w)

/-- Transpose (R106). -/
def State.transpose (s : State) : State :=
  loop (s.w * s.w)
    (fun i t => if i < tilePartner s.w i then t.swapBlocks i (tilePartner s.w i) else t) s

/-! ### The stages -/

/-- The engine's step at a stage that reads no stream (R112): a full plane is re-ordered and packed (R75), and MERGE,
OUTPUT and FINISH do their work. A BUSY engine with no such stage has no rule (log 15). -/
def State.engineWork (s : State) : Result :=
  match s.stage with
  | .planeA .body => .next { s.packPlane s.slot with stage := .mode }
  | .planeB .body => .next { s.packPlane s.slot with stage := .merge }
  | .merge => s.merge
  | .output => .next { s.interleave.transpose with stage := .finish }
  | .finish => .next s.finishDecode
  | _ => .fault .noRule

end Sys2Proof.Machine
end

