-- ==== Sys2Proof/Machine/Fetch.lean ====
section
/-! DEFINITION. What the machine does next: whose turn it is, and the code word or command that is fetched and decoded. -/

namespace Sys2Proof.Machine

/-- What a step has to do, with the state past whatever was fetched. -/
inductive Fetched where
  /-- run an instruction -/
  | instr (i : Instr) (s : State)
  /-- the stream ends inside the code word -/
  | outOfData (s : State)
  /-- a stage that reads no stream -/
  | work (s : State)
  /-- a host access that is no command -/
  | access (a : Access) (s : State)
  /-- the reset input -/
  | reset (s : State)
  /-- an engine that waits for START (R139) -/
  | wait (s : State)
deriving DecidableEq, Repr

/-- The bits the fetch looks at: no code word is longer (R57). -/
def window : Nat := 32

/-- Fetch the code word at the cursor (R55, R67). Its bits are consumed; where the stream ends inside it, all that is
left is consumed and OutOfData is raised (R70, R71, R126). -/
def State.fetchCode (s : State) (p : ParseState) : Fetched :=
  match decode p (s.peekBits window) with
  | .code i rest => .instr i (s.consume ((s.peekBits window).length - rest.length))
  | .reject _ => .outOfData (s.consume (s.peekBits window).length)

/-- The engine's turn (R112, R123, R139). -/
def State.fetchEngine (s : State) : Fetched :=
  if s.status = .busy then
    match s.parse with
    | some p => s.fetchCode p
    | none => .work s
  else .wait s

/-- The host's turn: a 32-bit CTRL write with START set is the command (R28, R110), all else an access. -/
def State.fetchAccess (s : State) (a : Access) : Fetched :=
  match a with
  | .regWrite 4 0 v =>
    match decode .ctrlWrite (bitsOf v) with
    | .code i _ => .instr i s
    | .reject _ => .access a s
  | _ => .access a s

/-- The next event (log 8). With no event left, the engine moves (R123: it keeps taking steps while BUSY). -/
def State.fetch (s : State) : Fetched :=
  match s.pending with
  | [] => s.fetchEngine
  | .engine :: rest => State.fetchEngine { s with pending := rest }
  | .access a :: rest => State.fetchAccess { s with pending := rest } a
  | .reset :: rest => .reset { s with pending := rest }

/-- Put the engine where it reads a code word of parse state `p` first, at the start of the stream (log 11): a decode in
progress, of width 1 where the code word needs room in a plane. -/
def State.enter (s : State) (p : ParseState) : State :=
  let t : State := { s with
    pending := .engine :: s.pending
    status := .busy
    byteIndex := 0
    bitIndex := 7 }
  match p with
  | .width1 => { t with stage := .header .width1 }
  | .width2 => { t with stage := .header .width2 }
  | .order => { t with stage := .header .order }
  | .planeStart => { t with stage := .planeA .start }
  | .literal => { t with stage := .planeA .body, width1 := 1, width2 := 1, cnt := 0, m := true }
  | .run => { t with stage := .planeA .body, width1 := 1, width2 := 1, cnt := 0, m := false }
  | .mode => { t with stage := .mode }
  | .ctrlWrite => s

/-- Store a code word of `len` bits at the start of IN, first bit in bit 7 of byte 0, zero bits after it up to the
longest code word (R41, R68). -/
def State.loadWord (s : State) (len w : Nat) : State :=
  let all : BitVec 32 := BitVec.ofNat 32 w <<< (32 - len)
  { ((((s.writeIn 0 (all.extractLsb' 24 8)).writeIn 1 (all.extractLsb' 16 8)).writeIn 2
      (all.extractLsb' 8 8)).writeIn 3 (all.extractLsb' 0 8)) with inLen := 4 }

end Sys2Proof.Machine
end

