-- ==== Sys2Proof/Machine/HostPort.lean ====
section
/-! DEFINITION. The host's accesses (R26 to R34, R45 to R49), but for the START command, which is an instruction. -/

namespace Sys2Proof.Machine

/-- The host reads a value. -/
def State.see (s : State) (v : Word) : State := { s with seen := v :: s.seen }

/-- The host reads a value the spec leaves unspecified while BUSY (R34, R47, U1, U2). -/
def State.seeDraw (s : State) (v : Word) : State := { s with seen := v :: s.seen, draws := s.draws + 1 }

/-- A read of a result register: unspecified while BUSY (R34). -/
def State.seeResult (s : State) (v : Word) : State :=
  if s.status = .busy then s.seeDraw (Config.busyWord s.draws) else s.see v

/-- A host read of the register at an offset of the window (R26, R27, R34). -/
def State.regRead (s : State) (off : Nat) : State :=
  if off = 0x04 then s.see s.statusWord
  else if off = 0x08 then s.see s.inLen
  else if off = 0x0C then s.seeResult s.outCount
  else if off = 0x10 then s.seeResult s.hdrWord
  else if off = 0x14 then s.seeResult s.curByte
  else if off = 0x18 then s.seeResult (s.curBit.setWidth 32)
  else s.see 0

/-- A host write of a register (R26 to R30): only IN_LEN, and only when not BUSY, is writable. A CTRL write with START
set is the instruction CMD.START and does not come here; any other CTRL write does nothing (R28). -/
def State.regWrite (s : State) (off : Nat) (v : Word) : State :=
  if off = 0x08 ∧ s.status ≠ .busy then { s with inLen := BitVec.ofNat 32 (min v.toNat Config.inMemBytes) } else s

/-- A host read of a byte of OUT (R47): unspecified while BUSY. -/
def State.outRead (s : State) (a : Nat) : State :=
  if s.status = .busy then s.seeDraw ((Config.busyByte s.draws).setWidth 32) else s.see ((s.outByte a).setWidth 32)

/-- A host access inside the interface (R45 to R49). -/
def State.hostEffect (s : State) : Access → State
  | .regRead _ off => s.regRead off
  | .regWrite _ off v => s.regWrite off v
  | .inRead _ a => s.see ((s.inByte a).setWidth 32)
  | .inWrite _ a v => if s.status = .busy then s else s.writeIn a v
  | .outRead _ a => s.outRead a
  | .outWrite _ _ _ => s

/-- The refusal of an access outside the interface (R45, R46, R47). -/
def refusalOf : Access → Refusal
  | .regRead _ _ => .registerAccess
  | .regWrite _ _ _ => .registerAccess
  | .inRead _ _ => .inAccess
  | .inWrite _ _ _ => .inAccess
  | .outRead _ _ => .outAccess
  | .outWrite _ _ _ => .outAccess

/-- A host access: performed if it is of the interface, refused otherwise (R45, R132). -/
def State.hostAccess (s : State) (a : Access) : Result :=
  if a.wf then .next (s.hostEffect a) else .refused (refusalOf a)

end Sys2Proof.Machine
end

