-- ==== Sys2Proof/Machine/Step.lean ====
section
/-! DEFINITION. One step of the machine: the next event, or the engine's next code word or stage. -/

namespace Sys2Proof.Machine

/-- One step (log 8, log 10). -/
def step (s : State) : Host.Outcome State Fault Refusal :=
  match s.fetch with
  | .instr i t => exec i t
  | .outOfData t => .next (State.abort .outOfData t)
  | .work t => t.engineWork
  | .access a t => t.hostAccess a
  | .reset t => .next t.resetInput
  | .wait t => .next t

/-- `s` with the instruction of a table word placed so that the very next step fetches and runs it (log 11): the START
command as the host's next access, a code word at the start of IN with the decode in progress at its parse state. -/
def State.withFetchWord (s : State) (nbits w : Nat) : State :=
  match (tablePlace nbits w).1 with
  | .ctrlWrite => { s with pending := .access (.regWrite 4 0 (BitVec.ofNat 32 w)) :: s.pending }
  | p => (s.enter p).loadWord (tablePlace nbits w).2 w

end Sys2Proof.Machine
end

