-- ==== Sys2Proof/Safety.lean ====
section
/-! DEFINITION. The terms the statements use: runs of the machine, the position in the stream, the invariant of every
reachable state, and closed forms of the spec that the machine's own operations do not use. -/

namespace Sys2Proof.Machine

/-- `n` steps, stopping at the first fault or refusal. -/
def run : Nat → State → Result
  | 0, s => .next s
  | n + 1, s =>
    match step s with
    | .next t => run n t
    | .fault r => .fault r
    | .refused r => .refused r

/-- The next event is the engine's step (log 8). -/
def State.engineNext (s : State) : Bool :=
  match s.pending with
  | [] => true
  | .engine :: _ => true
  | _ => false

/-- The state with its next event taken. -/
def State.pop (s : State) : State := { s with pending := s.pending.tail }

/-- The bits before the cursor: the `c` of R73. -/
def State.bitPos (s : State) : Nat := 8 * s.byteIndex.toNat + (7 - s.bitIndex.toNat)

/-- The bits of the stream, `8*L` (R73). -/
def State.streamBits (s : State) : Nat := 8 * s.inLen.toNat

/-- The cursor has not passed `(L, 7)` (R17, R70, R73). -/
def State.cursorInStream (s : State) : Prop :=
  s.byteIndex.toNat < s.inLen.toNat ∨ (s.byteIndex = s.inLen ∧ s.bitIndex = 7)

/-- A host that issues START next, whatever the reserved bits of its CTRL word and whatever comes after it, the engine
not BUSY (R28, R110, R140). -/
def State.aboutToStart (s : State) : Prop :=
  s.status ≠ .busy ∧ ∃ v rest, s.pending = .access (.regWrite 4 0 v) :: rest ∧ v.getLsbD 0 = true

/-- `n` steps lead from `s` to `t`, each of them from a BUSY state: the engine's turns and what the host and reset do
between them (log 8). -/
def whileBusy : Nat → State → State → Prop
  | 0, s, t => t = s
  | n + 1, s, t => s.status = .busy ∧ ∃ u, step s = .next u ∧ whileBusy n u t

/-- `t` is reached by the START step from `s` and then `n` steps of the decode it starts, `t` the first state that may
be no longer BUSY. -/
def State.decodeReaches (n : Nat) (s t : State) : Prop := ∃ u, step s = .next u ∧ whileBusy n u t

/-- Every access the host has left is one of the interface (R45, R46, R47). -/
def State.hostInInterface (s : State) : Prop := ∀ a, .access a ∈ s.pending → a.wf = true

/-- The host's steps 2 to 4 of R140: write the stream into IN from address `a` on, its length into IN_LEN, and START. -/
def hostSequence (len a : Nat) : List Byte → List Event
  | [] => [.access (.regWrite 4 8 (BitVec.ofNat 32 len)), .access (.regWrite 4 0 1)]
  | v :: rest => .access (.inWrite 1 a v) :: hostSequence len (a + 1) rest

/-- The 2-bit value of the pixel at bit position `j` of an output pair (R105): the odd byte gives the high bit. -/
def pixelOf (even odd : Byte) (j : Nat) : BitVec 2 :=
  BitVec.ofBool (odd.getLsbD j) ++ BitVec.ofBool (even.getLsbD j)

/-- `t` is `s` but for what the end of a decode writes (R120, R125) and the working state it leaves unspecified (R19,
R23). -/
def EndsFrom (s t : State) : Prop :=
  t = { s with
    status := t.status
    err := t.err
    outCount := t.outCount
    curByte := t.curByte
    curBit := t.curBit
    stage := t.stage
    era := t.era
    slot := t.slot
    m := t.m
    cnt := t.cnt
    g := t.g
    k := t.k
    n := t.n
    carry := t.carry
    raw0 := t.raw0
    raw1 := t.raw1
    packed0 := t.packed0
    packed1 := t.packed1 }

/-- `t` is `s` but for the two packed planes and the Gray carry. -/
def SameButPacked (s t : State) : Prop :=
  t = { s with packed0 := t.packed0, packed1 := t.packed1, carry := t.carry }

/-- `t` is `s` but for what a host read changes: the value read, the count of unspecified values, the event taken. -/
def SameButHost (s t : State) : Prop :=
  t = { s with pending := t.pending, seen := t.seen, draws := t.draws }

/-- The prefix count and the run length of a run code, by the closed form of R62: `n = (2^(k+1) - 1) + x`. -/
def runShape : Instr → Option (Nat × Nat)
  | .runK0 x => some (0, 2 ^ 1 - 1 + x.toNat)
  | .runK1 x => some (1, 2 ^ 2 - 1 + x.toNat)
  | .runK2 x => some (2, 2 ^ 3 - 1 + x.toNat)
  | .runK3 x => some (3, 2 ^ 4 - 1 + x.toNat)
  | .runK4 x => some (4, 2 ^ 5 - 1 + x.toNat)
  | .runK5 x => some (5, 2 ^ 6 - 1 + x.toNat)
  | .runK6 x => some (6, 2 ^ 7 - 1 + x.toNat)
  | .runK7 x => some (7, 2 ^ 8 - 1 + x.toNat)
  | .runK8 x => some (8, 2 ^ 9 - 1 + x.toNat)
  | .runK9 x => some (9, 2 ^ 10 - 1 + x.toNat)
  | .runK10 x => some (10, 2 ^ 11 - 1 + x.toNat)
  | .runK11 x => some (11, 2 ^ 12 - 1 + x.toNat)
  | .runK12 x => some (12, 2 ^ 13 - 1 + x.toNat)
  | .runK13 x => some (13, 2 ^ 14 - 1 + x.toNat)
  | .runK14 x => some (14, 2 ^ 15 - 1 + x.toNat)
  | .runK15 x => some (15, 2 ^ 16 - 1 + x.toNat)
  | _ => none

/-- The value of a literal group that appends a unit (R61). -/
def literalValue : Instr → Option (BitVec 2)
  | .lit1 => some 1
  | .lit2 => some 2
  | .lit3 => some 3
  | _ => none

/-- A host access that reads (R48). -/
def isRead : Access → Bool
  | .regRead _ _ => true
  | .inRead _ _ => true
  | .outRead _ _ => true
  | _ => false

/-- The mode a mode code gives (R63). -/
def modeValue : Instr → Option (BitVec 2)
  | .mode0 => some 0
  | .mode1 => some 1
  | .mode2 => some 2
  | _ => none

/-- Bit `t` of column `x` of a packed plane in the order the Gray transform visits it, the `e[t]` of R93. -/
def State.columnBit (s : State) (slot : Bool) (x t : Nat) : Bool :=
  (s.packedByte slot ((t / 8) * (8 * s.w) + x)).getLsbD (7 - t % 8)

/-- `e[0] ^ e[1] ^ ... ^ e[t]` (R93). -/
def prefixXor (e : Nat → Bool) : Nat → Bool
  | 0 => e 0
  | t + 1 => (prefixXor e t) ^^ (e (t + 1))

/-- The differential code of byte `(y, x)` of a plane: GrayEncodeByte down the column (R94). -/
def State.grayEncoded (s : State) (slot : Bool) (y x : Nat) : Byte :=
  grayEncodeByte
    (if y = 0 then false else (s.packedByte slot ((y - 1) * (8 * s.w) + x)).getLsbD 0)
    (s.packedByte slot (y * (8 * s.w) + x))

/-- The transposed position of a tile in a `W` by `W` grid (R107). -/
def sigma (w k : Nat) : Nat := (k % w) * w + k / w

/-- The stages in which a plane's body is being filled (R112). -/
def Stage.inBody (g : Stage) : Prop := g = .planeA .body ∨ g = .planeB .body

/-- What holds of the machine at reset and after every step. -/
structure Inv (s : State) : Prop where
  /-- the memories and planes keep their canonical form -/
  inMem_wf : Memory.wf s.inMem = true
  outMem_wf : Memory.wf s.outMem = true
  raw_wf : ∀ slot, Cells.wf (s.rawCells slot) = true
  packed_wf : ∀ slot, Memory.wf (s.packedCells slot) = true
  /-- nothing is stored outside IN or OUT (R36) -/
  inMem_range : ∀ c ∈ s.inMem, c.1 < Config.inMemBytes
  outMem_range : ∀ c ∈ s.outMem, c.1 < Config.outMemBytes
  /-- IN_LEN never passes the end of IN (R30) -/
  inLen_le : s.inLen.toNat ≤ Config.inMemBytes
  /-- ERR is nonzero exactly in ERROR (R29) -/
  err_iff : s.err ≠ .none ↔ s.status = .error
  /-- a stage is in progress exactly while BUSY (R19, R35) -/
  busy_iff : s.status = .busy ↔ s.stage ≠ .idle
  /-- HDR.MODE is never 3 (R18, R63) -/
  mode_legal : s.mode ≠ 3
  /-- the cursor never passes `(L, 7)` (R17, R70) -/
  cursor_le : s.status = .busy → s.cursorInStream
  /-- CUR_BYTE and CUR_BIT show the cursor between decodes (R33) -/
  cursor_shown : s.status ≠ .busy → s.curByte = s.byteIndex ∧ s.curBit = s.bitIndex
  /-- OUT_COUNT (R31) -/
  outCount_done : s.status = .done → s.outCount.toNat = outBytes s.w
  outCount_zero : s.status ≠ .done → s.outCount = 0
  /-- after the header the two widths agree (R113) -/
  widths_agree : s.stage ≠ .idle → s.stage ≠ .header .width1 → s.stage ≠ .header .width2 → s.width1 = s.width2
  /-- the first plane goes to the primary slot, the second to the other (R96) -/
  slot_first : ∀ p, s.stage = .planeA p → s.slot = s.order
  slot_second : ∀ p, s.stage = .planeB p → s.slot = !s.order
  /-- a plane never holds more units than LEN (R19), and every unit counted has been written (R23) -/
  cnt_le : s.stage.inBody → s.cnt.toNat ≤ lenUnits s.w
  raw_written : s.stage.inBody → ∀ i < s.cnt.toNat, (Cells.read? i (s.rawCells s.slot)).isSome
  /-- the packed planes are written before they are read (R23) -/
  first_packed : (s.stage = .mode ∨ (∃ p, s.stage = .planeB p) ∨ s.stage = .merge ∨ s.stage = .output) →
    ∀ b < packedBytes s.w, (Cells.read? b (s.packedCells s.order)).isSome
  second_packed : (s.stage = .merge ∨ s.stage = .output) →
    ∀ b < packedBytes s.w, (Cells.read? b (s.packedCells (!s.order))).isSome

end Sys2Proof.Machine
end

