-- ==== Sys2Proof/Certificates/Slice0/Obligations.lean ====
section
/-! DEFINITION. The statements about the machine. Each docstring names the rule it formalises. `log <n>` is
notes/assumptions/<n>.md. -/

open Sys2Proof Sys2Proof.Machine

/-! ### Code words -/

/-- R57, R67: the decoder, at the place of an instruction, reads back what the encoder writes and nothing after it. -/
def Obligations.DecodeReadsBackEncode : Prop :=
  ∀ (i : Instr) (rest : List Bool), i.wf = true → decode i.place (encode i ++ rest) = .code i rest

/-- R57, R67: whatever the decoder accepts is the encoding of the instruction it answers, at its place. -/
def Obligations.DecodeAcceptsOnlyEncodings : Prop :=
  ∀ (p : ParseState) (bits rest : List Bool) (i : Instr),
    decode p bits = .code i rest → i.place = p ∧ bits = encode i ++ rest ∧ (encode i).length = i.codeLength

/-- R65, R66: with 32 bits left, every parse state of the stream reads some code word: no stream is undefined. -/
def Obligations.LongStreamsAlwaysDecode : Prop :=
  ∀ (p : ParseState) (bits : List Bool), p ≠ .ctrlWrite → 32 ≤ bits.length →
    ∃ i rest, decode p bits = .code i rest ∧ i.place = p

/-- R57, R62, R63: words written out from the encoding table decode to the instructions they stand for. -/
def Obligations.WrittenWordsDecode : Prop :=
  decode .width1 [false, true, false, true] = .code (.hdrWidth1 5) []
  ∧ decode .order [true] = .code (.hdrOrder true) []
  ∧ decode .planeStart [true] = .code .pmodeLit []
  ∧ decode .literal [true, false] = .code .lit2 []
  ∧ decode .mode [true, false] = .code .mode1 []
  ∧ decode .run [true, true, false, true, false, true] = .code (.runK2 5) []
  ∧ decode .run (List.replicate 16 true) = .code .runInvalid []
  ∧ decode .ctrlWrite (List.replicate 31 false ++ [true]) = .code (.cmdStart 0) []

/-- R62: every run length from 1 to 131070 has exactly one code word, of `2k + 2` bits. -/
def Obligations.EveryRunLengthHasOneCode : Prop :=
  (∀ n, 1 ≤ n → n ≤ 131070 →
    ∃ bits, (∃ i k, decode .run bits = .code i [] ∧ runShape i = some (k, n))
      ∧ ∀ other, (∃ i k, decode .run other = .code i [] ∧ runShape i = some (k, n)) → other = bits)
  ∧ (∀ bits i k n, decode .run bits = .code i [] → runShape i = some (k, n) →
      bits.length = 2 * k + 2 ∧ 2 ^ (k + 1) - 1 ≤ n ∧ n ≤ 2 ^ (k + 2) - 2)

/-- R68, R69: the bytes of a stream written in the notation hold its statements' bits in order, then fewer than eight
zero bits; `RUN n` is the run code of length `n`. -/
def Obligations.AssembledStreamsHoldTheirStatements : Prop :=
  (∀ ss : List Stmt, ∃ pad, pad < 8 ∧
    (assemble ss).flatMap bitsOf = ss.flatMap emit ++ List.replicate pad false)
  ∧ ∀ n, 1 ≤ n → n ≤ 131070 → runShape (runOf n) = some (runPrefix n, n)

/-! ### The bit reader -/

/-- R70: ReadBit, for every cursor: OutOfData with nothing changed at the end of the stream, else bit `bitIndex` of byte
`byteIndex`, with the cursor one bit further and nothing else changed. -/
def Obligations.ReadBitTakesOneBit : Prop :=
  ∀ s : State,
    (s.inLen.toNat ≤ s.byteIndex.toNat → s.readBit = none)
    ∧ (s.byteIndex.toNat < s.inLen.toNat → s.bitIndex = 0 →
        s.readBit = some ((s.inByte s.byteIndex.toNat).getLsbD 0,
          { s with bitIndex := 7, byteIndex := s.byteIndex + 1 }))
    ∧ (s.byteIndex.toNat < s.inLen.toNat → s.bitIndex ≠ 0 →
        s.readBit = some ((s.inByte s.byteIndex.toNat).getLsbD s.bitIndex.toNat,
          { s with bitIndex := s.bitIndex - 1 }))

/-- R73: after `c` bits the cursor is `(c / 8, 7 - c mod 8)`, and the next ReadBit raises OutOfData exactly when
`c = 8*L`, the cursor then being `(L, 7)`. -/
def Obligations.CursorCountsBitsConsumed : Prop :=
  ∀ (s : State) (c : Nat), s.byteIndex = 0 → s.bitIndex = 7 → c ≤ s.streamBits →
    (s.consume c).byteIndex.toNat = c / 8
    ∧ (s.consume c).bitIndex.toNat = 7 - c % 8
    ∧ ((s.consume c).readBit = none ↔ c = s.streamBits)
    ∧ (c = s.streamBits → (s.consume c).byteIndex = s.inLen ∧ (s.consume c).bitIndex = 7)

/-- R71, R42: ReadInt accumulates the next `n` bits, the first the most significant, or raises OutOfData with the bits
before the end consumed. -/
def Obligations.ReadIntIsBigEndian : Prop :=
  ∀ (s : State) (n : Nat), n ≤ 16 →
    s.readInt n =
      match takeInt n (s.peekBits n) with
      | some (v, _) => (.ok (v.setWidth 16), s.consume n)
      | none => (.error .outOfData, s.consume n)

/-- R72: ReadUnary counts one bits up to the zero bit, raises InvalidRunLength at the sixteenth one bit without reading
further, and OutOfData if the stream ends first. -/
def Obligations.ReadUnaryChecksTheSixteenthBit : Prop :=
  ∀ s : State,
    s.readUnary =
      match takeUnary 0 (s.peekBits 16) with
      | some (.count k, _) => (.ok (BitVec.ofNat 5 k), { s.consume (k + 1) with k := BitVec.ofNat 5 k })
      | some (.invalid, _) => (.error .invalidRunLength, { s.consume 16 with k := 16 })
      | none => (.error .outOfData, { s.consume 16 with k := BitVec.ofNat 5 (s.peekBits 16).length })

/-- R55, R67: the fetch reads exactly one code word, however much of the stream follows it; where the stream ends inside
the code word it consumes all that is left. -/
def Obligations.FetchReadsOneCodeWord : Prop :=
  ∀ (s : State) (p : ParseState) (n : Nat), p ≠ .ctrlWrite → 32 ≤ n →
    (∀ i rest, decode p (s.peekBits n) = .code i rest → s.fetchCode p = .instr i (s.consume i.codeLength))
    ∧ (∀ why, decode p (s.peekBits n) = .reject why → s.fetchCode p = .outOfData (s.consume n))

/-- R81, R72, R71: the fetch of a run code is ReadUnary and then ReadInt(k + 1), but for the working register `k`, which
the run code's meaning writes (log 17). -/
def Obligations.RunFetchIsReadUnaryThenReadInt : Prop :=
  ∀ s : State,
    match s.readUnary with
    | (.error .invalidRunLength, t) => s.fetchCode .run = .instr .runInvalid { t with k := s.k }
    | (.error _, t) => s.fetchCode .run = .outOfData { t with k := s.k }
    | (.ok k, t) =>
      match t.readInt (k.toNat + 1) with
      | (.error _, u) => s.fetchCode .run = .outOfData { u with k := s.k }
      | (.ok x, u) =>
        ∃ i, s.fetchCode .run = .instr i { u with k := s.k }
          ∧ runShape i = some (k.toNat, 2 ^ (k.toNat + 1) - 1 + x.toNat)

/-! ### A step runs what it fetches -/

/-- R56: which code word is read depends on the parse state: when it is the engine's turn and the bits at the cursor
decode to `i` in the parse state, the step is `exec i` at the state with the event taken and the cursor past the code
word. The split is the model's choice, not the spec's: one step for each code word is log 10 (DESIGN CHOICE), the cursor
moved past the code word before its meaning is log 17 (DESIGN CHOICE). -/
def Obligations.StepRunsTheDecodedCodeWord : Prop :=
  ∀ (s : State) (p : ParseState) (i : Instr) (rest : List Bool),
    s.engineNext = true → s.parse = some p → decode p (s.peekBits window) = .code i rest →
    step s = exec i (s.pop.consume i.codeLength)

/-- R28, R110: a 32-bit host write to CTRL with bit 0 set runs CMD.START, whatever its reserved bits. -/
def Obligations.StepRunsTheStartCommand : Prop :=
  ∀ (s : State) (v : Word) (rest : List Event),
    s.pending = .access (.regWrite 4 0 v) :: rest → v.getLsbD 0 = true →
    step s = exec (.cmdStart (v.extractLsb' 1 31)) s.pop

/-- R70, R125, R126: where the stream ends inside a code word, the decode aborts with OutOfData and the cursor at
`(L, 7)`; the header fields, IN, OUT and IN_LEN stay. -/
def Obligations.StreamEndAborts : Prop :=
  ∀ (s : State) (p : ParseState) (why : Reject),
    s.engineNext = true → s.parse = some p → s.cursorInStream → decode p (s.peekBits window) = .reject why →
    ∃ t, step s = .next t
      ∧ t.status = .error ∧ t.err = .outOfData ∧ t.outCount = 0 ∧ t.stage = .idle
      ∧ t.curByte = s.inLen ∧ t.curBit = 7
      ∧ EndsFrom { s.pop with byteIndex := s.inLen, bitIndex := 7 } t

/-! ### What each code word does -/

/-- R113, R114, R115: HDR.WIDTH1, an agreeing HDR.WIDTH2 and HDR.ORDER write their HDR field and nothing else but the
stage and, for ORDER, `slot`. -/
def Obligations.HeaderFieldsComplete : Prop :=
  (∀ (s : State) (w : BitVec 4), s.parse = some .width1 →
    exec (.hdrWidth1 w) s = .next { s with width1 := w, stage := .header .width2 })
  ∧ (∀ (s : State) (v : BitVec 4), s.parse = some .width2 → v = s.width1 →
    exec (.hdrWidth2 v) s = .next { s with width2 := v, stage := .header .order })
  ∧ (∀ (s : State) (o : Bool), s.parse = some .order →
    exec (.hdrOrder o) s = .next { s with order := o, slot := o, stage := .planeA .start })

/-- R113, R125: a second width that differs raises WidthMismatch: HDR.WIDTH2 is written, the decode ends in ERROR with
the cursor saved and OUT_COUNT 0, and OUT, IN and the other header fields stay. -/
def Obligations.WidthMismatchAborts : Prop :=
  ∀ (s : State) (v : BitVec 4), s.parse = some .width2 → v ≠ s.width1 →
    ∃ t, exec (.hdrWidth2 v) s = .next t
      ∧ t.status = .error ∧ t.err = .widthMismatch ∧ t.outCount = 0 ∧ t.stage = .idle
      ∧ t.curByte = s.byteIndex ∧ t.curBit = s.bitIndex
      ∧ EndsFrom { s with width2 := v } t

/-- R75, R76: PMODE sets `m` to its bit and `cnt` to 0 and opens the plane of its stage. -/
def Obligations.PmodeOpensThePlane : Prop :=
  ∀ s : State, s.parse = some .planeStart →
    ∃ st, ((s.stage = .planeA .start ∧ st = .planeA .body) ∨ (s.stage = .planeB .start ∧ st = .planeB .body))
      ∧ exec .pmodeRun s = .next { s with cnt := 0, m := false, stage := st }
      ∧ exec .pmodeLit s = .next { s with cnt := 0, m := true, stage := st }

/-- R78, R80: LIT.1, LIT.2 and LIT.3 append one unit of their value at RAW[slot][cnt]; the sub-pass ends, and `m`
inverts, exactly when that unit fills the plane. Nothing else changes. -/
def Obligations.LiteralUnitsAppend : Prop :=
  ∀ (s : State) (i : Instr) (v : BitVec 2), s.parse = some .literal → literalValue i = some v →
    ∃ t, exec i s = .next t
      ∧ t = { s with g := t.g, cnt := t.cnt, m := t.m, raw0 := t.raw0, raw1 := t.raw1 }
      ∧ t.g = v ∧ t.cnt.toNat = s.cnt.toNat + 1
      ∧ t.m = (if s.cnt.toNat + 1 = 32 * (s.w * s.w) then !s.m else s.m)
      ∧ (∀ j, t.rawUnit s.slot j = if j = s.cnt.toNat then v else s.rawUnit s.slot j)
      ∧ t.rawCells (!s.slot) = s.rawCells (!s.slot)

/-- R79: LIT.END ends the literal sub-pass and appends nothing. -/
def Obligations.LiteralEndSwitchesToRun : Prop :=
  ∀ s : State, s.parse = some .literal →
    exec .litEnd s = .next { s with g := 0, m := false }

/-- R81, R82, R77: RUN.K0 to RUN.K15 append `min(n, LEN - cnt)` zero units from RAW[slot][cnt] on, set `k` and `n`, and
end the run sub-pass. Nothing else changes. -/
def Obligations.RunCodesAppendClampedZeros : Prop :=
  ∀ (s : State) (i : Instr) (k n : Nat), s.parse = some .run → runShape i = some (k, n) →
    ∃ t, exec i s = .next t
      ∧ t = { s with k := t.k, n := t.n, cnt := t.cnt, m := t.m, raw0 := t.raw0, raw1 := t.raw1 }
      ∧ t.k.toNat = k ∧ t.n.toNat = n ∧ t.m = true
      ∧ t.cnt.toNat = s.cnt.toNat + min n (32 * (s.w * s.w) - s.cnt.toNat)
      ∧ (∀ j, t.rawUnit s.slot j =
          if s.cnt.toNat ≤ j ∧ j < t.cnt.toNat then 0 else s.rawUnit s.slot j)
      ∧ t.rawCells (!s.slot) = s.rawCells (!s.slot)

/-- R83, R125: sixteen one bits where a run prefix is expected end the decode with InvalidRunLength. -/
def Obligations.InvalidRunAborts : Prop :=
  ∀ s : State, s.parse = some .run →
    ∃ t, exec .runInvalid s = .next t
      ∧ t.status = .error ∧ t.err = .invalidRunLength ∧ t.outCount = 0 ∧ t.stage = .idle
      ∧ t.curByte = s.byteIndex ∧ t.curBit = s.bitIndex
      ∧ EndsFrom s t

/-- R116, R63, R117: the mode codes write their value to HDR.MODE and open PLANE_B in the other slot. -/
def Obligations.ModeCodesComplete : Prop :=
  ∀ (s : State) (i : Instr) (v : BitVec 2), s.parse = some .mode → modeValue i = some v →
    exec i s = .next { s with mode := v, slot := !s.order, stage := .planeB .start }

/-- R110: START, when the engine is not BUSY: cursor (0, 7), OUT_COUNT, HDR and ERR 0, STATE BUSY, stage HEADER; IN,
OUT, IN_LEN and all else stay. -/
def Obligations.StartCommandStartsADecode : Prop :=
  ∀ (s : State) (x : BitVec 31), s.status ≠ .busy →
    exec (.cmdStart x) s = .next { s with
      byteIndex := 0
      bitIndex := 7
      outCount := 0
      width1 := 0
      width2 := 0
      order := false
      mode := 0
      err := .none
      status := .busy
      stage := .header .width1 }

/-- R111: a CTRL write with bit 0 set while BUSY is ignored. -/
def Obligations.StartIsIgnoredWhileBusy : Prop :=
  ∀ (s : State) (v : Word) (rest : List Event),
    s.status = .busy → s.pending = .access (.regWrite 4 0 v) :: rest → v.getLsbD 0 = true →
    step s = .next { s with pending := rest }

/-! ### The plane decoder's end -/

/-- R89: where each raw unit of a full plane lands in the packed plane, in both of the rule's forms. -/
def Obligations.PackedPlaneClosedForm : Prop :=
  ∀ (s : State) (slot : Bool),
    (∀ y x, y < s.w → x < 8 * s.w →
      (s.packPlane slot).packedByte slot (y * (8 * s.w) + x) =
        ((s.rawUnit slot ((4 * y + 0) * (8 * s.w) + x)).setWidth 8 <<< 6)
        ||| ((s.rawUnit slot ((4 * y + 1) * (8 * s.w) + x)).setWidth 8 <<< 4)
        ||| ((s.rawUnit slot ((4 * y + 2) * (8 * s.w) + x)).setWidth 8 <<< 2)
        ||| (s.rawUnit slot ((4 * y + 3) * (8 * s.w) + x)).setWidth 8)
    ∧ (∀ r, r < 32 * (s.w * s.w) →
      ((s.packPlane slot).packedByte slot (r / (32 * s.w) * (8 * s.w) + r % (8 * s.w))).extractLsb'
        (6 - 2 * (r / (8 * s.w) % 4)) 2 = s.rawUnit slot r)

/-- R75, R77, R87, R88: when the plane is full the engine's step re-orders and packs it into P[slot], bytes `[0, S)`, and
goes on to MODE or to MERGE; no bit is read and nothing else changes. That this is one step is the model's
choice (log 10). -/
def Obligations.FullPlaneIsPacked : Prop :=
  ∀ s : State, s.engineNext = true → s.status = .busy → s.stage.inBody → s.parse = none →
    ∃ t, step s = .next t
      ∧ ((s.stage = .planeA .body ∧ t.stage = .mode) ∨ (s.stage = .planeB .body ∧ t.stage = .merge))
      ∧ t = { s.pop with stage := t.stage, packed0 := t.packed0, packed1 := t.packed1 }
      ∧ (∀ b, b < 8 * (s.w * s.w) → t.packedByte s.slot b = (s.packPlane s.slot).packedByte s.slot b)
      ∧ (∀ b, 8 * (s.w * s.w) ≤ b → t.packedByte s.slot b = s.packedByte s.slot b)
      ∧ t.packedCells (!s.slot) = s.packedCells (!s.slot)

/-! ### The Gray transform -/

/-- R93: after GrayPlane every bit is the running XOR of the bits above it in its column, and each GRAY[0][v] is the
Gray-to-binary conversion of v. -/
def Obligations.GrayPlaneIsRunningXor : Prop :=
  (∀ (s : State) (slot : Bool) (x y j : Nat), x < 8 * s.w → y < s.w → j < 8 →
    ((s.grayPlane slot).packedByte slot (y * (8 * s.w) + x)).getLsbD (7 - j) =
      prefixXor (s.columnBit slot x) (8 * y + j))
  ∧ ∀ v : Nibble, gray false (v ^^^ (v >>> 1)) = v

/-- R92: GrayPlane changes the bytes `[0, S)` of its own plane and the carry, and nothing else. -/
def Obligations.GrayPlaneFrame : Prop :=
  ∀ (s : State) (slot : Bool),
    SameButPacked s (s.grayPlane slot)
    ∧ (s.grayPlane slot).packedCells (!slot) = s.packedCells (!slot)
    ∧ ∀ b, 8 * (s.w * s.w) ≤ b → (s.grayPlane slot).packedByte slot b = s.packedByte slot b

/-- R94: GrayPlane and the differential encoder undo each other, in both orders, on planes of the same width; the
transform is not its own inverse. -/
def Obligations.GrayEncoderInvertsGrayPlane : Prop :=
  (∀ (s e : State) (slot : Bool), e.w = s.w →
    (∀ y x, y < s.w → x < 8 * s.w → e.packedByte slot (y * (8 * s.w) + x) = s.grayEncoded slot y x) →
    ∀ y x, y < s.w → x < 8 * s.w →
      (e.grayPlane slot).packedByte slot (y * (8 * s.w) + x) = s.packedByte slot (y * (8 * s.w) + x))
  ∧ (∀ (s : State) (slot : Bool) (y x : Nat), y < s.w → x < 8 * s.w →
      (s.grayPlane slot).grayEncoded slot y x = s.packedByte slot (y * (8 * s.w) + x))
  ∧ gray false 4 = 7 ∧ gray false 7 = 5
  ∧ ∃ (s : State) (b : Nat), b < 8 * (s.w * s.w) ∧
      ((s.grayPlane false).grayPlane false).packedByte false b ≠ s.packedByte false b

/-- R102: the order of the two Gray decodes does not change the result: only the carry left behind, which every column
sets before use, can differ. -/
def Obligations.GrayDecodesCommute : Prop :=
  ∀ s : State,
    { (s.grayPlane false).grayPlane true with carry := false } =
    { (s.grayPlane true).grayPlane false with carry := false }

/-! ### The plane merger -/

/-- R98, R99, R100, R118: the MERGE step, for the modes 0, 1 and 2. The primary slot is Gray-decoded; the other is
Gray-decoded (mode 0), XORed with the decoded primary (mode 1), or both (mode 2). That MERGE is one step is the model's choice
(log 10). -/
def Obligations.MergeAppliesTheMode : Prop :=
  ∀ s : State, s.engineNext = true → s.status = .busy → s.stage = .merge → s.mode ≠ 3 →
    ∃ t, step s = .next t ∧ t.stage = .output
      ∧ SameButPacked { s.pop with stage := .output } t
      ∧ (∀ b, b < 8 * (s.w * s.w) →
          t.packedByte s.order b = (s.grayPlane s.order).packedByte s.order b
          ∧ (s.mode = 0 → t.packedByte (!s.order) b = (s.grayPlane (!s.order)).packedByte (!s.order) b)
          ∧ (s.mode = 1 → t.packedByte (!s.order) b =
              s.packedByte (!s.order) b ^^^ (s.grayPlane s.order).packedByte s.order b)
          ∧ (s.mode = 2 → t.packedByte (!s.order) b =
              (s.grayPlane (!s.order)).packedByte (!s.order) b ^^^ (s.grayPlane s.order).packedByte s.order b))
      ∧ (∀ slot b, 8 * (s.w * s.w) ≤ b → t.packedByte slot b = s.packedByte slot b)

/-! ### The output -/

/-- R104: Interleave writes P[0] to the even and P[1] to the odd bytes of OUT `[0, 2S)`, and no other byte. -/
def Obligations.InterleaveAlternatesTheSlots : Prop :=
  ∀ s : State,
    (∀ b, b < 8 * (s.w * s.w) →
      s.interleave.outByte (2 * b) = s.packedByte false b ∧ s.interleave.outByte (2 * b + 1) = s.packedByte true b)
    ∧ (∀ a, 16 * (s.w * s.w) ≤ a → s.interleave.outByte a = s.outByte a)
    ∧ s.interleave = { s with outMem := s.interleave.outMem }

/-- R106, R107: the swap loop moves block `sigma(k)` to block `k`, where `sigma` is the transposed position and its own
inverse, and touches no byte beyond the tiles. -/
def Obligations.TransposeMovesBlocksToTransposedPlace : Prop :=
  ∀ s : State,
    (∀ k, k < s.w * s.w → tilePartner s.w k = sigma s.w k ∧ sigma s.w k < s.w * s.w ∧ sigma s.w (sigma s.w k) = k)
    ∧ (∀ k j, k < s.w * s.w → j < 16 → s.transpose.outByte (16 * k + j) = s.outByte (16 * sigma s.w k + j))
    ∧ (∀ a, 16 * (s.w * s.w) ≤ a → s.transpose.outByte a = s.outByte a)
    ∧ s.transpose = { s with outMem := s.transpose.outMem }

/-- R108: Transpose applied twice leaves every byte of OUT as it was, for every width. -/
def Obligations.TransposeTwiceIsIdentity : Prop :=
  ∀ (s : State) (a : Nat), s.transpose.transpose.outByte a = s.outByte a

/-- R109, R119: the whole output of the OUTPUT stage, byte by byte, from the merged planes. That OUTPUT is one
step is the model's choice (log 10, DESIGN CHOICE). -/
def Obligations.OutputStageClosedForm : Prop :=
  ∀ s : State, s.engineNext = true → s.status = .busy → s.stage = .output →
    ∃ t, step s = .next t ∧ t = { s.pop with stage := .finish, outMem := t.outMem }
      ∧ (∀ (k r : Nat) (p : Bool), k < s.w * s.w → r < 8 →
          t.outByte (16 * k + 2 * r + p.toNat) = s.packedByte p (k % s.w * (8 * s.w) + 8 * (k / s.w) + r))
      ∧ (∀ a, 16 * (s.w * s.w) ≤ a → t.outByte a = s.outByte a)

/-- R120: FINISH sets OUT_COUNT to 16*W*W, shows the cursor, clears ERR and ends in DONE; OUT, IN and HDR stay. That FINISH
is one step is the model's choice (log 10, DESIGN CHOICE). -/
def Obligations.FinishRecordsTheResult : Prop :=
  ∀ s : State, s.engineNext = true → s.status = .busy → s.stage = .finish →
    ∃ t, step s = .next t
      ∧ t.outCount.toNat = 16 * (s.w * s.w) ∧ t.curByte = s.byteIndex ∧ t.curBit = s.bitIndex
      ∧ t.err = .none ∧ t.status = .done ∧ t.stage = .idle
      ∧ EndsFrom s.pop t

/-! ### Whole decodes -/

/-- R140, R51: the host's sequence (stream into IN, its length into IN_LEN, START), from an engine that is not BUSY,
leaves the engine at the start of a decode of exactly those bytes, with OUT as it was and the host's later events to
come. -/
def Obligations.HostSequenceStartsTheDecode : Prop :=
  ∀ (s : State) (bytes : List Byte) (later : List Event), s.status ≠ .busy → bytes.length ≤ Config.inMemBytes →
    s.pending = hostSequence bytes.length 0 bytes ++ later →
    ∃ t, run (bytes.length + 2) s = .next t
      ∧ t.status = .busy ∧ t.stage = .header .width1 ∧ t.pending = later
      ∧ t.byteIndex = 0 ∧ t.bitIndex = 7 ∧ t.hdrWord = 0 ∧ t.outCount = 0 ∧ t.err = .none
      ∧ t.inLen.toNat = bytes.length ∧ (∀ a (h : a < bytes.length), t.inByte a = bytes[a])
      ∧ (∀ a, bytes.length ≤ a → t.inByte a = s.inByte a)
      ∧ t.outMem = s.outMem ∧ t.outEra = s.outEra ∧ t.seen = s.seen

/-- R39, R84, R125: while BUSY and before OUTPUT every step but a reset, of the engine or the host, keeps OUT, IN and
IN_LEN; and a decode that ends in ERROR, whatever the host does meanwhile, has written no byte of OUT, and OUT_COUNT
is 0. -/
def Obligations.FailedDecodesLeaveOutAlone : Prop :=
  (∀ s t : State, s.status = .busy → s.stage ≠ .output → s.pending.head? ≠ some .reset → step s = .next t →
    t.outMem = s.outMem ∧ t.outEra = s.outEra ∧ t.inMem = s.inMem ∧ t.inLen = s.inLen)
  ∧ (∀ (s t : State) (n : Nat), s.aboutToStart → s.decodeReaches n t → t.status = .error →
    t.outMem = s.outMem ∧ t.outEra = s.outEra ∧ t.outCount = 0 ∧ t.err ≠ .none
    ∧ t.inMem = s.inMem ∧ t.inLen = s.inLen)

/-- R31, R39, R120: a decode that ends in DONE, whatever the host does meanwhile, has OUT_COUNT = 16*W*W for the width
both header fields agree on, and leaves every byte of OUT at or beyond it as it was. -/
def Obligations.SuccessfulDecodesCountTheirOutput : Prop :=
  ∀ (s t : State) (n : Nat), s.aboutToStart → s.decodeReaches n t → t.status = .done →
    t.outCount.toNat = 16 * (t.w * t.w) ∧ t.width1 = t.width2 ∧ t.mode ≠ 3 ∧ t.err = .none
    ∧ (∀ a, t.outCount.toNat ≤ a → t.outByte a = s.outByte a)
    ∧ t.inMem = s.inMem ∧ t.inLen = s.inLen

/-- R86, R123: every decode ends: from any BUSY state that meets the invariant, whatever events of the interface the
host has left, the engine leaves BUSY within `8*L + 6` of this model's steps (the split of the work into steps is
log 10) and one for each event left; it ends in DONE or ERROR unless a reset is among them. -/
def Obligations.EveryDecodeEnds : Prop :=
  ∀ s : State, Inv s → s.status = .busy → s.hostInInterface →
    ∃ n t, n ≤ s.pending.length + s.streamBits + 6 ∧ whileBusy n s t ∧ t.status ≠ .busy
      ∧ (.reset ∉ s.pending → t.status = .done ∨ t.status = .error)

/-- R122: the end state of a decode depends on IN bytes `[0, L)` and `L` alone: not on the registers, the planes, OUT or
any unspecified value the machine held before, nor on what the host does during the decode. The second clause is not
R122's but the model's choice: that with the same host events the two decodes have the same STATE after each step rests
on this model's split of a decode into steps (log 10, DESIGN CHOICE), which R123 leaves free. -/
def Obligations.DecodeDependsOnTheStreamAlone : Prop :=
  ∀ (s t : State), s.aboutToStart → t.aboutToStart → s.inLen = t.inLen →
    (∀ a, a < s.inLen.toNat → s.inByte a = t.inByte a) →
    (∀ (n k : Nat) (u v : State), s.decodeReaches n u → t.decodeReaches k v →
      (u.status = .done ∨ u.status = .error) → (v.status = .done ∨ v.status = .error) →
        u.status = v.status ∧ u.err = v.err ∧ u.outCount = v.outCount ∧ u.hdrWord = v.hdrWord
        ∧ u.curByte = v.curByte ∧ u.curBit = v.curBit
        ∧ ∀ a, a < u.outCount.toNat → u.outByte a = v.outByte a)
    ∧ (s.pending.tail = t.pending.tail →
      ∀ (n : Nat) (u v : State), s.decodeReaches n u → run (n + 1) t = .next v → u.status = v.status)

/-- R113, R126, R128: a stream whose two width fields differ ends in WidthMismatch with the cursor at `(1, 7)`, both
fields in HDR, even when `L = 1`; OUT stays. The host may do anything of the interface meanwhile but reset. -/
def Obligations.DifferingWidthsEndTheDecode : Prop :=
  ∀ s : State, s.aboutToStart → s.hostInInterface → .reset ∉ s.pending → 1 ≤ s.inLen.toNat →
    (s.inByte 0).extractLsb' 4 4 ≠ (s.inByte 0).extractLsb' 0 4 →
    ∃ n t, s.decodeReaches n t ∧ t.status = .error ∧ t.err = .widthMismatch
      ∧ t.curByte = 1 ∧ t.curBit = 7
      ∧ t.width1 = (s.inByte 0).extractLsb' 4 4 ∧ t.width2 = (s.inByte 0).extractLsb' 0 4
      ∧ t.order = false ∧ t.mode = 0 ∧ t.outMem = s.outMem ∧ t.outEra = s.outEra

/-- R121: a stream of width 0 is read for 12 bits, or 13 when the mode code has two, writes no OUT byte and ends DONE
with OUT_COUNT = 0; it needs `L >= 2`. The host may do anything of the interface meanwhile but reset. -/
def Obligations.WidthZeroDecodesToNothing : Prop :=
  (∀ s : State, s.aboutToStart → s.hostInInterface → .reset ∉ s.pending → 2 ≤ s.inLen.toNat → s.inByte 0 = 0 →
    ∃ n t, s.decodeReaches n t ∧ t.status = .done ∧ t.outCount = 0 ∧ t.outMem = s.outMem ∧ t.outEra = s.outEra
      ∧ t.bitPos = (if (s.inByte 1).getLsbD 5 then 13 else 12)
      ∧ t.curByte = t.byteIndex ∧ t.curBit = t.bitIndex)
  ∧ (∀ s : State, s.aboutToStart → s.hostInInterface → .reset ∉ s.pending → s.inLen.toNat = 1 → s.inByte 0 = 0 →
    ∃ n t, s.decodeReaches n t ∧ t.status = .error ∧ t.err = .outOfData)

/-! ### Invariants -/

/-- Reset meets the invariant (R35, R138). -/
def Obligations.ResetMeetsTheInvariant : Prop := Inv State.reset

/-- Every step, of the engine, the host or reset, keeps the invariant: memories canonical and in range, IN_LEN, STATUS,
HDR, cursor and OUT_COUNT consistent (R17, R18, R29 to R33), planes written before they are read (R23). -/
def Obligations.StepKeepsTheInvariant : Prop :=
  ∀ s t : State, Inv s → step s = .next t → Inv t

/-- R65, R112, R132: from a state that meets the invariant the machine always goes on: no fault exists, no code word is
ever out of place, and the only refusal is of a host access outside the interface. -/
def Obligations.OnlyAccessesOutsideTheInterfaceStop : Prop :=
  ∀ s : State, Inv s →
    (∃ t, step s = .next t)
    ∨ (∃ a rest, s.pending = .access a :: rest ∧ a.wf = false ∧ step s = .refused (refusalOf a))

/-- R17: while BUSY the cursor only advances and never passes the end of the stream. -/
def Obligations.CursorOnlyAdvances : Prop :=
  ∀ s t : State, s.status = .busy → s.cursorInStream → s.pending.head? ≠ some .reset → step s = .next t →
    s.bitPos ≤ t.bitPos ∧ t.bitPos ≤ t.streamBits ∧ t.byteIndex.toNat ≤ t.inLen.toNat ∧ t.inLen = s.inLen

/-! ### The host's port -/

/-- R49: while BUSY every access of the interface, a CTRL write with START set among them, changes nothing but what the
host has read; the decode, IN, OUT and every register stay. -/
def Obligations.BusyAccessesChangeNothing : Prop :=
  ∀ (s : State) (a : Access) (rest : List Event),
    s.status = .busy → s.pending = .access a :: rest → a.wf = true →
    ∃ t, step s = .next t ∧ t.pending = rest ∧ SameButHost s t

/-- R48: a read of any space has no side effect, in any state. -/
def Obligations.ReadsHaveNoSideEffect : Prop :=
  ∀ (s : State) (a : Access) (rest : List Event),
    s.pending = .access a :: rest → a.wf = true → isRead a = true →
    ∃ t v, step s = .next t ∧ t.pending = rest ∧ t.seen = v :: s.seen ∧ SameButHost s t

/-- R27, R28, R29, R30, R124: in every state CTRL and 0x1C read 0, IN_LEN reads back, and STATUS reads the number of its
STATE in bits 1:0, the number of its ERR in bits 3:2 and 0 above. -/
def Obligations.AlwaysReadableRegisters : Prop :=
  ∀ (s : State) (off : Nat) (rest : List Event), s.pending = .access (.regRead 4 off) :: rest →
    (off = 0x00 ∨ off = 0x1C → step s = .next { s with pending := rest, seen := 0 :: s.seen })
    ∧ (off = 0x08 → step s = .next { s with pending := rest, seen := s.inLen :: s.seen })
    ∧ (off = 0x04 → ∃ v : Word, step s = .next { s with pending := rest, seen := v :: s.seen }
        ∧ (s.status = .idle → v.extractLsb' 0 2 = 0)
        ∧ (s.status = .busy → v.extractLsb' 0 2 = 1)
        ∧ (s.status = .done → v.extractLsb' 0 2 = 2)
        ∧ (s.status = .error → v.extractLsb' 0 2 = 3)
        ∧ (s.err = .none → v.extractLsb' 2 2 = 0)
        ∧ (s.err = .widthMismatch → v.extractLsb' 2 2 = 1)
        ∧ (s.err = .invalidRunLength → v.extractLsb' 2 2 = 2)
        ∧ (s.err = .outOfData → v.extractLsb' 2 2 = 3)
        ∧ v.extractLsb' 4 28 = 0)

/-- R31, R32, R33: the result registers show their values when the engine is not BUSY. -/
def Obligations.ResultRegistersReadWhenNotBusy : Prop :=
  ∀ (s : State) (off : Nat) (rest : List Event), s.pending = .access (.regRead 4 off) :: rest → s.status ≠ .busy →
    (off = 0x0C → step s = .next { s with pending := rest, seen := s.outCount :: s.seen })
    ∧ (off = 0x14 → step s = .next { s with pending := rest, seen := s.curByte :: s.seen })
    ∧ (off = 0x18 → step s = .next { s with pending := rest, seen := BitVec.ofNat 32 s.curBit.toNat :: s.seen })
    ∧ (off = 0x10 → ∃ v : Word, step s = .next { s with pending := rest, seen := v :: s.seen }
        ∧ v.extractLsb' 0 4 = s.width1 ∧ v.extractLsb' 4 4 = s.width2
        ∧ v.getLsbD 8 = s.order ∧ v.extractLsb' 9 2 = s.mode ∧ v.extractLsb' 11 21 = 0)

/-- R34, R47: while BUSY the result registers and OUT read as a free value, whatever it is (log 4), and nothing but the
host's own record changes. -/
def Obligations.BusyResultReadsAreUnspecified : Prop :=
  ∀ (s : State) (rest : List Event), s.status = .busy →
    (∀ off, (off = 0x0C ∨ off = 0x10 ∨ off = 0x14 ∨ off = 0x18) → s.pending = .access (.regRead 4 off) :: rest →
      step s = .next { s with pending := rest, seen := Config.busyWord s.draws :: s.seen, draws := s.draws + 1 })
    ∧ (∀ a, a < 3600 → s.pending = .access (.outRead 1 a) :: rest →
      step s = .next { s with
        pending := rest
        seen := (Config.busyByte s.draws).setWidth 32 :: s.seen
        draws := s.draws + 1 })

/-- R26 to R30: a register write outside BUSY stores `min(v, IN_MEM_BYTES)` in IN_LEN; a CTRL write with START clear and
a write to any other register of the window do nothing. -/
def Obligations.RegisterWritesOutsideBusy : Prop :=
  ∀ (s : State) (off : Nat) (v : Word) (rest : List Event),
    s.status ≠ .busy → s.pending = .access (.regWrite 4 off v) :: rest → off % 4 = 0 → off < 32 →
    (off = 0x08 → ∃ t, step s = .next t ∧ t = { s with pending := rest, inLen := t.inLen }
        ∧ t.inLen.toNat = min v.toNat Config.inMemBytes)
    ∧ (off ≠ 0x08 → ¬ (off = 0x00 ∧ v.getLsbD 0 = true) → step s = .next { s with pending := rest })

/-- R46: outside BUSY a host write stores its byte of IN and no other; a host read of IN returns the stored byte in every
state. -/
def Obligations.InputMemoryAccesses : Prop :=
  ∀ (s : State) (a : Nat) (rest : List Event), a < Config.inMemBytes →
    (∀ v, s.status ≠ .busy → s.pending = .access (.inWrite 1 a v) :: rest →
      ∃ t, step s = .next t ∧ t = { s with pending := rest, inMem := t.inMem }
        ∧ ∀ b, t.inByte b = if b = a then v else s.inByte b)
    ∧ (s.pending = .access (.inRead 1 a) :: rest →
      step s = .next { s with pending := rest, seen := (s.inByte a).setWidth 32 :: s.seen })

/-- R47: outside BUSY a host read of OUT returns the stored byte; a host write to OUT is ignored in every state. -/
def Obligations.OutputMemoryAccesses : Prop :=
  ∀ (s : State) (a : Nat) (rest : List Event), a < 3600 →
    (s.status ≠ .busy → s.pending = .access (.outRead 1 a) :: rest →
      step s = .next { s with pending := rest, seen := (s.outByte a).setWidth 32 :: s.seen })
    ∧ (∀ v, s.pending = .access (.outWrite 1 a v) :: rest → step s = .next { s with pending := rest })

/-- R45, R46, R47: an access of another width, misaligned or out of range is refused, in every state. -/
def Obligations.AccessesOutsideTheInterfaceAreRefused : Prop :=
  ∀ (s : State) (rest : List Event) (bytes a : Nat),
    (∀ v, bytes ≠ 4 ∨ a % 4 ≠ 0 ∨ 32 ≤ a →
      (s.pending = .access (.regRead bytes a) :: rest → step s = .refused .registerAccess)
      ∧ (s.pending = .access (.regWrite bytes a v) :: rest → step s = .refused .registerAccess))
    ∧ (∀ v, bytes ≠ 1 ∨ Config.inMemBytes ≤ a →
      (s.pending = .access (.inRead bytes a) :: rest → step s = .refused .inAccess)
      ∧ (s.pending = .access (.inWrite bytes a v) :: rest → step s = .refused .inAccess))
    ∧ (∀ v, bytes ≠ 1 ∨ 3600 ≤ a →
      (s.pending = .access (.outRead bytes a) :: rest → step s = .refused .outAccess)
      ∧ (s.pending = .access (.outWrite bytes a v) :: rest → step s = .refused .outAccess))

/-! ### Reset and idleness -/

/-- R138: reset, at any time: the registers take their reset values, IN stays, OUT stays unless the reset came while
BUSY, which makes every byte of OUT a free value of a new era (log 3). -/
def Obligations.ResetInputResetsTheEngine : Prop :=
  ∀ (s : State) (rest : List Event), s.pending = .reset :: rest →
    ∃ t, step s = .next t ∧ t.pending = rest
      ∧ t.status = .idle ∧ t.err = .none ∧ t.inLen = 0 ∧ t.outCount = 0 ∧ t.hdrWord = 0
      ∧ t.byteIndex = 0 ∧ t.bitIndex = 7 ∧ t.curByte = 0 ∧ t.curBit = 7 ∧ t.stage = .idle
      ∧ t.inMem = s.inMem
      ∧ (s.status ≠ .busy → ∀ a, t.outByte a = s.outByte a)
      ∧ (s.status = .busy → ∀ a, t.outByte a = Config.unwrittenOut (s.outEra + 1) a)

/-- R35: the values the spec gives for reset. -/
def Obligations.ResetValues : Prop :=
  State.reset.statusWord = 0 ∧ State.reset.inLen = 0 ∧ State.reset.outCount = 0 ∧ State.reset.hdrWord = 0
  ∧ State.reset.byteIndex = 0 ∧ State.reset.bitIndex = 7 ∧ State.reset.curByte = 0 ∧ State.reset.curBit = 7
  ∧ State.reset.stage = .idle

/-- R139: an engine that is not BUSY waits for START: its turn changes nothing. -/
def Obligations.EngineWaitsForStart : Prop :=
  ∀ s : State, s.engineNext = true → s.status ≠ .busy → step s = .next s.pop
end

