-- ==== Sys2Proof/Laws/Cells.lean ====
section
/-! SUPPORT. The memory laws: a read after a write, every other address untouched, and the canonical form kept. -/

namespace Sys2Proof

variable {α : Type}

@[simp] theorem Cells.read?_nil (a : Nat) : Cells.read? a ([] : Cells α) = none := rfl

@[simp] theorem Cells.wf_nil : Cells.wf ([] : Cells α) = true := rfl

/-- A read of the address just written gives the value written. -/
@[simp] theorem Cells.read?_write_same (a : Nat) (v : α) (c : Cells α) :
    Cells.read? a (Cells.write a v c) = some v := by
  induction c with
  | nil => simp [Cells.write, Cells.read?]
  | cons e rest ih =>
    obtain ⟨b, u⟩ := e
    simp only [Cells.write]
    split
    · simp [Cells.read?]
    · split
      · simp [Cells.read?]
      · next h => simp [Cells.read?, h, ih]

/-- A write leaves every other address as it was. -/
theorem Cells.read?_write_other {a b : Nat} (h : b ≠ a) (v : α) (c : Cells α) :
    Cells.read? b (Cells.write a v c) = Cells.read? b c := by
  induction c with
  | nil => simp [Cells.write, Cells.read?, h]
  | cons e rest ih =>
    obtain ⟨d, u⟩ := e
    simp only [Cells.write]
    split
    · simp [Cells.read?, h]
    · split
      · next h2 => subst h2; simp [Cells.read?, h]
      · simp only [Cells.read?, ih]

/-- A read after a write, both cases. -/
theorem Cells.read?_write (a b : Nat) (v : α) (c : Cells α) :
    Cells.read? b (Cells.write a v c) = if b = a then some v else Cells.read? b c := by
  by_cases h : b = a
  · subst h; simp
  · simp [h, Cells.read?_write_other h]

theorem Cells.wf_cons_cons (a b : Nat) (u v : α) (rest : Cells α) :
    Cells.wf ((a, u) :: (b, v) :: rest) = true ↔ a < b ∧ Cells.wf ((b, v) :: rest) = true := by
  simp [Cells.wf]

/-- The canonical form does not depend on the first value. -/
theorem Cells.wf_head_value (a : Nat) (u v : α) (rest : Cells α) :
    Cells.wf ((a, u) :: rest) = Cells.wf ((a, v) :: rest) := by
  cases rest with
  | nil => rfl
  | cons e r => obtain ⟨b, w⟩ := e; rfl

theorem Cells.wf_tail {a : Nat} {u : α} {rest : Cells α} (h : Cells.wf ((a, u) :: rest) = true) :
    Cells.wf rest = true := by
  cases rest with
  | nil => rfl
  | cons e r => obtain ⟨b, w⟩ := e; exact ((Cells.wf_cons_cons ..).mp h).2

/-- Where the first entry of a write stands. -/
theorem Cells.write_head (a : Nat) (v : α) (b : Nat) (u : α) (rest : Cells α) (h : b < a)
    (hwf : Cells.wf ((b, u) :: rest) = true) :
    ∃ d w r, Cells.write a v rest = (d, w) :: r ∧ b < d := by
  cases rest with
  | nil => exact ⟨a, v, [], rfl, h⟩
  | cons e r =>
    obtain ⟨d, w⟩ := e
    have hd := ((Cells.wf_cons_cons ..).mp hwf).1
    simp only [Cells.write]
    split
    · exact ⟨a, v, _, rfl, h⟩
    · split
      · exact ⟨a, v, _, rfl, h⟩
      · exact ⟨d, w, _, rfl, hd⟩

/-- A write keeps the canonical form. -/
theorem Cells.write_wf (a : Nat) (v : α) (c : Cells α) (h : Cells.wf c = true) :
    Cells.wf (Cells.write a v c) = true := by
  induction c with
  | nil => rfl
  | cons e rest ih =>
    obtain ⟨b, u⟩ := e
    simp only [Cells.write]
    split
    · next hab => exact (Cells.wf_cons_cons ..).mpr ⟨hab, h⟩
    · split
      · next hab => subst hab; rw [Cells.wf_head_value _ v u]; exact h
      · next h1 h2 =>
        have hba : b < a := by omega
        obtain ⟨d, w, r, hw, hbd⟩ := Cells.write_head a v b u rest hba h
        have hrest := ih (Cells.wf_tail h)
        rw [hw] at hrest ⊢
        exact (Cells.wf_cons_cons ..).mpr ⟨hbd, hrest⟩

/-- Every address listed after a write was listed before, or is the one written. -/
theorem Cells.mem_write {a : Nat} {v : α} {c : Cells α} {e : Nat × α} (h : e ∈ Cells.write a v c) :
    e.1 = a ∨ e ∈ c := by
  induction c with
  | nil => simp [Cells.write] at h; exact .inl (by rw [h])
  | cons d rest ih =>
    obtain ⟨b, u⟩ := d
    simp only [Cells.write] at h
    split at h
    · rcases List.mem_cons.mp h with h | h
      · exact .inl (by rw [h])
      · exact .inr h
    · split at h
      · rcases List.mem_cons.mp h with h | h
        · exact .inl (by rw [h])
        · exact .inr (List.mem_cons_of_mem _ h)
      · rcases List.mem_cons.mp h with h | h
        · exact .inr (by rw [h]; exact List.mem_cons_self)
        · rcases ih h with h | h
          · exact .inl h
          · exact .inr (List.mem_cons_of_mem _ h)

end Sys2Proof
end

