-- ==== Sys2Proof/Laws/State.lean ====
section
/-! SUPPORT. One lemma per field per named update of the state, true by rfl, so that no later proof unfolds an update. -/

namespace Sys2Proof.Machine

variable (s : State)

/-! ### `State.pop` -/

@[simp] theorem State.pop_status : (s.pop).status = s.status := rfl
@[simp] theorem State.pop_err : (s.pop).err = s.err := rfl
@[simp] theorem State.pop_inLen : (s.pop).inLen = s.inLen := rfl
@[simp] theorem State.pop_outCount : (s.pop).outCount = s.outCount := rfl
@[simp] theorem State.pop_width1 : (s.pop).width1 = s.width1 := rfl
@[simp] theorem State.pop_width2 : (s.pop).width2 = s.width2 := rfl
@[simp] theorem State.pop_order : (s.pop).order = s.order := rfl
@[simp] theorem State.pop_mode : (s.pop).mode = s.mode := rfl
@[simp] theorem State.pop_curByte : (s.pop).curByte = s.curByte := rfl
@[simp] theorem State.pop_curBit : (s.pop).curBit = s.curBit := rfl
@[simp] theorem State.pop_byteIndex : (s.pop).byteIndex = s.byteIndex := rfl
@[simp] theorem State.pop_bitIndex : (s.pop).bitIndex = s.bitIndex := rfl
@[simp] theorem State.pop_stage : (s.pop).stage = s.stage := rfl
@[simp] theorem State.pop_slot : (s.pop).slot = s.slot := rfl
@[simp] theorem State.pop_m : (s.pop).m = s.m := rfl
@[simp] theorem State.pop_cnt : (s.pop).cnt = s.cnt := rfl
@[simp] theorem State.pop_g : (s.pop).g = s.g := rfl
@[simp] theorem State.pop_k : (s.pop).k = s.k := rfl
@[simp] theorem State.pop_n : (s.pop).n = s.n := rfl
@[simp] theorem State.pop_carry : (s.pop).carry = s.carry := rfl
@[simp] theorem State.pop_raw0 : (s.pop).raw0 = s.raw0 := rfl
@[simp] theorem State.pop_raw1 : (s.pop).raw1 = s.raw1 := rfl
@[simp] theorem State.pop_packed0 : (s.pop).packed0 = s.packed0 := rfl
@[simp] theorem State.pop_packed1 : (s.pop).packed1 = s.packed1 := rfl
@[simp] theorem State.pop_inMem : (s.pop).inMem = s.inMem := rfl
@[simp] theorem State.pop_outMem : (s.pop).outMem = s.outMem := rfl
@[simp] theorem State.pop_pending : (s.pop).pending = s.pending.tail := rfl
@[simp] theorem State.pop_seen : (s.pop).seen = s.seen := rfl
@[simp] theorem State.pop_draws : (s.pop).draws = s.draws := rfl
@[simp] theorem State.pop_era : (s.pop).era = s.era := rfl
@[simp] theorem State.pop_outEra : (s.pop).outEra = s.outEra := rfl

/-! ### `State.writeIn` -/

@[simp] theorem State.writeIn_status (a : Nat) (v : Byte) : (s.writeIn a v).status = s.status := rfl
@[simp] theorem State.writeIn_err (a : Nat) (v : Byte) : (s.writeIn a v).err = s.err := rfl
@[simp] theorem State.writeIn_inLen (a : Nat) (v : Byte) : (s.writeIn a v).inLen = s.inLen := rfl
@[simp] theorem State.writeIn_outCount (a : Nat) (v : Byte) : (s.writeIn a v).outCount = s.outCount := rfl
@[simp] theorem State.writeIn_width1 (a : Nat) (v : Byte) : (s.writeIn a v).width1 = s.width1 := rfl
@[simp] theorem State.writeIn_width2 (a : Nat) (v : Byte) : (s.writeIn a v).width2 = s.width2 := rfl
@[simp] theorem State.writeIn_order (a : Nat) (v : Byte) : (s.writeIn a v).order = s.order := rfl
@[simp] theorem State.writeIn_mode (a : Nat) (v : Byte) : (s.writeIn a v).mode = s.mode := rfl
@[simp] theorem State.writeIn_curByte (a : Nat) (v : Byte) : (s.writeIn a v).curByte = s.curByte := rfl
@[simp] theorem State.writeIn_curBit (a : Nat) (v : Byte) : (s.writeIn a v).curBit = s.curBit := rfl
@[simp] theorem State.writeIn_byteIndex (a : Nat) (v : Byte) : (s.writeIn a v).byteIndex = s.byteIndex := rfl
@[simp] theorem State.writeIn_bitIndex (a : Nat) (v : Byte) : (s.writeIn a v).bitIndex = s.bitIndex := rfl
@[simp] theorem State.writeIn_stage (a : Nat) (v : Byte) : (s.writeIn a v).stage = s.stage := rfl
@[simp] theorem State.writeIn_slot (a : Nat) (v : Byte) : (s.writeIn a v).slot = s.slot := rfl
@[simp] theorem State.writeIn_m (a : Nat) (v : Byte) : (s.writeIn a v).m = s.m := rfl
@[simp] theorem State.writeIn_cnt (a : Nat) (v : Byte) : (s.writeIn a v).cnt = s.cnt := rfl
@[simp] theorem State.writeIn_g (a : Nat) (v : Byte) : (s.writeIn a v).g = s.g := rfl
@[simp] theorem State.writeIn_k (a : Nat) (v : Byte) : (s.writeIn a v).k = s.k := rfl
@[simp] theorem State.writeIn_n (a : Nat) (v : Byte) : (s.writeIn a v).n = s.n := rfl
@[simp] theorem State.writeIn_carry (a : Nat) (v : Byte) : (s.writeIn a v).carry = s.carry := rfl
@[simp] theorem State.writeIn_raw0 (a : Nat) (v : Byte) : (s.writeIn a v).raw0 = s.raw0 := rfl
@[simp] theorem State.writeIn_raw1 (a : Nat) (v : Byte) : (s.writeIn a v).raw1 = s.raw1 := rfl
@[simp] theorem State.writeIn_packed0 (a : Nat) (v : Byte) : (s.writeIn a v).packed0 = s.packed0 := rfl
@[simp] theorem State.writeIn_packed1 (a : Nat) (v : Byte) : (s.writeIn a v).packed1 = s.packed1 := rfl
@[simp] theorem State.writeIn_inMem (a : Nat) (v : Byte) : (s.writeIn a v).inMem = Cells.write a v s.inMem := rfl
@[simp] theorem State.writeIn_outMem (a : Nat) (v : Byte) : (s.writeIn a v).outMem = s.outMem := rfl
@[simp] theorem State.writeIn_pending (a : Nat) (v : Byte) : (s.writeIn a v).pending = s.pending := rfl
@[simp] theorem State.writeIn_seen (a : Nat) (v : Byte) : (s.writeIn a v).seen = s.seen := rfl
@[simp] theorem State.writeIn_draws (a : Nat) (v : Byte) : (s.writeIn a v).draws = s.draws := rfl
@[simp] theorem State.writeIn_era (a : Nat) (v : Byte) : (s.writeIn a v).era = s.era := rfl
@[simp] theorem State.writeIn_outEra (a : Nat) (v : Byte) : (s.writeIn a v).outEra = s.outEra := rfl

/-! ### `State.writeOut` -/

@[simp] theorem State.writeOut_status (a : Nat) (v : Byte) : (s.writeOut a v).status = s.status := rfl
@[simp] theorem State.writeOut_err (a : Nat) (v : Byte) : (s.writeOut a v).err = s.err := rfl
@[simp] theorem State.writeOut_inLen (a : Nat) (v : Byte) : (s.writeOut a v).inLen = s.inLen := rfl
@[simp] theorem State.writeOut_outCount (a : Nat) (v : Byte) : (s.writeOut a v).outCount = s.outCount := rfl
@[simp] theorem State.writeOut_width1 (a : Nat) (v : Byte) : (s.writeOut a v).width1 = s.width1 := rfl
@[simp] theorem State.writeOut_width2 (a : Nat) (v : Byte) : (s.writeOut a v).width2 = s.width2 := rfl
@[simp] theorem State.writeOut_order (a : Nat) (v : Byte) : (s.writeOut a v).order = s.order := rfl
@[simp] theorem State.writeOut_mode (a : Nat) (v : Byte) : (s.writeOut a v).mode = s.mode := rfl
@[simp] theorem State.writeOut_curByte (a : Nat) (v : Byte) : (s.writeOut a v).curByte = s.curByte := rfl
@[simp] theorem State.writeOut_curBit (a : Nat) (v : Byte) : (s.writeOut a v).curBit = s.curBit := rfl
@[simp] theorem State.writeOut_byteIndex (a : Nat) (v : Byte) : (s.writeOut a v).byteIndex = s.byteIndex := rfl
@[simp] theorem State.writeOut_bitIndex (a : Nat) (v : Byte) : (s.writeOut a v).bitIndex = s.bitIndex := rfl
@[simp] theorem State.writeOut_stage (a : Nat) (v : Byte) : (s.writeOut a v).stage = s.stage := rfl
@[simp] theorem State.writeOut_slot (a : Nat) (v : Byte) : (s.writeOut a v).slot = s.slot := rfl
@[simp] theorem State.writeOut_m (a : Nat) (v : Byte) : (s.writeOut a v).m = s.m := rfl
@[simp] theorem State.writeOut_cnt (a : Nat) (v : Byte) : (s.writeOut a v).cnt = s.cnt := rfl
@[simp] theorem State.writeOut_g (a : Nat) (v : Byte) : (s.writeOut a v).g = s.g := rfl
@[simp] theorem State.writeOut_k (a : Nat) (v : Byte) : (s.writeOut a v).k = s.k := rfl
@[simp] theorem State.writeOut_n (a : Nat) (v : Byte) : (s.writeOut a v).n = s.n := rfl
@[simp] theorem State.writeOut_carry (a : Nat) (v : Byte) : (s.writeOut a v).carry = s.carry := rfl
@[simp] theorem State.writeOut_raw0 (a : Nat) (v : Byte) : (s.writeOut a v).raw0 = s.raw0 := rfl
@[simp] theorem State.writeOut_raw1 (a : Nat) (v : Byte) : (s.writeOut a v).raw1 = s.raw1 := rfl
@[simp] theorem State.writeOut_packed0 (a : Nat) (v : Byte) : (s.writeOut a v).packed0 = s.packed0 := rfl
@[simp] theorem State.writeOut_packed1 (a : Nat) (v : Byte) : (s.writeOut a v).packed1 = s.packed1 := rfl
@[simp] theorem State.writeOut_inMem (a : Nat) (v : Byte) : (s.writeOut a v).inMem = s.inMem := rfl
@[simp] theorem State.writeOut_outMem (a : Nat) (v : Byte) : (s.writeOut a v).outMem = Cells.write a v s.outMem := rfl
@[simp] theorem State.writeOut_pending (a : Nat) (v : Byte) : (s.writeOut a v).pending = s.pending := rfl
@[simp] theorem State.writeOut_seen (a : Nat) (v : Byte) : (s.writeOut a v).seen = s.seen := rfl
@[simp] theorem State.writeOut_draws (a : Nat) (v : Byte) : (s.writeOut a v).draws = s.draws := rfl
@[simp] theorem State.writeOut_era (a : Nat) (v : Byte) : (s.writeOut a v).era = s.era := rfl
@[simp] theorem State.writeOut_outEra (a : Nat) (v : Byte) : (s.writeOut a v).outEra = s.outEra := rfl

/-! ### `State.writeRaw` -/

@[simp] theorem State.writeRaw_status (sl : Bool) (i : Nat) (v : RawUnit) : (s.writeRaw sl i v).status = s.status := rfl
@[simp] theorem State.writeRaw_err (sl : Bool) (i : Nat) (v : RawUnit) : (s.writeRaw sl i v).err = s.err := rfl
@[simp] theorem State.writeRaw_inLen (sl : Bool) (i : Nat) (v : RawUnit) : (s.writeRaw sl i v).inLen = s.inLen := rfl
@[simp] theorem State.writeRaw_outCount (sl : Bool) (i : Nat) (v : RawUnit) : (s.writeRaw sl i v).outCount = s.outCount := rfl
@[simp] theorem State.writeRaw_width1 (sl : Bool) (i : Nat) (v : RawUnit) : (s.writeRaw sl i v).width1 = s.width1 := rfl
@[simp] theorem State.writeRaw_width2 (sl : Bool) (i : Nat) (v : RawUnit) : (s.writeRaw sl i v).width2 = s.width2 := rfl
@[simp] theorem State.writeRaw_order (sl : Bool) (i : Nat) (v : RawUnit) : (s.writeRaw sl i v).order = s.order := rfl
@[simp] theorem State.writeRaw_mode (sl : Bool) (i : Nat) (v : RawUnit) : (s.writeRaw sl i v).mode = s.mode := rfl
@[simp] theorem State.writeRaw_curByte (sl : Bool) (i : Nat) (v : RawUnit) : (s.writeRaw sl i v).curByte = s.curByte := rfl
@[simp] theorem State.writeRaw_curBit (sl : Bool) (i : Nat) (v : RawUnit) : (s.writeRaw sl i v).curBit = s.curBit := rfl
@[simp] theorem State.writeRaw_byteIndex (sl : Bool) (i : Nat) (v : RawUnit) : (s.writeRaw sl i v).byteIndex = s.byteIndex := rfl
@[simp] theorem State.writeRaw_bitIndex (sl : Bool) (i : Nat) (v : RawUnit) : (s.writeRaw sl i v).bitIndex = s.bitIndex := rfl
@[simp] theorem State.writeRaw_stage (sl : Bool) (i : Nat) (v : RawUnit) : (s.writeRaw sl i v).stage = s.stage := rfl
@[simp] theorem State.writeRaw_slot (sl : Bool) (i : Nat) (v : RawUnit) : (s.writeRaw sl i v).slot = s.slot := rfl
@[simp] theorem State.writeRaw_m (sl : Bool) (i : Nat) (v : RawUnit) : (s.writeRaw sl i v).m = s.m := rfl
@[simp] theorem State.writeRaw_cnt (sl : Bool) (i : Nat) (v : RawUnit) : (s.writeRaw sl i v).cnt = s.cnt := rfl
@[simp] theorem State.writeRaw_g (sl : Bool) (i : Nat) (v : RawUnit) : (s.writeRaw sl i v).g = s.g := rfl
@[simp] theorem State.writeRaw_k (sl : Bool) (i : Nat) (v : RawUnit) : (s.writeRaw sl i v).k = s.k := rfl
@[simp] theorem State.writeRaw_n (sl : Bool) (i : Nat) (v : RawUnit) : (s.writeRaw sl i v).n = s.n := rfl
@[simp] theorem State.writeRaw_carry (sl : Bool) (i : Nat) (v : RawUnit) : (s.writeRaw sl i v).carry = s.carry := rfl
@[simp] theorem State.writeRaw_raw0 (sl : Bool) (i : Nat) (v : RawUnit) : (s.writeRaw sl i v).raw0 = if sl then s.raw0 else Cells.write i v s.raw0 := rfl
@[simp] theorem State.writeRaw_raw1 (sl : Bool) (i : Nat) (v : RawUnit) : (s.writeRaw sl i v).raw1 = if sl then Cells.write i v s.raw1 else s.raw1 := rfl
@[simp] theorem State.writeRaw_packed0 (sl : Bool) (i : Nat) (v : RawUnit) : (s.writeRaw sl i v).packed0 = s.packed0 := rfl
@[simp] theorem State.writeRaw_packed1 (sl : Bool) (i : Nat) (v : RawUnit) : (s.writeRaw sl i v).packed1 = s.packed1 := rfl
@[simp] theorem State.writeRaw_inMem (sl : Bool) (i : Nat) (v : RawUnit) : (s.writeRaw sl i v).inMem = s.inMem := rfl
@[simp] theorem State.writeRaw_outMem (sl : Bool) (i : Nat) (v : RawUnit) : (s.writeRaw sl i v).outMem = s.outMem := rfl
@[simp] theorem State.writeRaw_pending (sl : Bool) (i : Nat) (v : RawUnit) : (s.writeRaw sl i v).pending = s.pending := rfl
@[simp] theorem State.writeRaw_seen (sl : Bool) (i : Nat) (v : RawUnit) : (s.writeRaw sl i v).seen = s.seen := rfl
@[simp] theorem State.writeRaw_draws (sl : Bool) (i : Nat) (v : RawUnit) : (s.writeRaw sl i v).draws = s.draws := rfl
@[simp] theorem State.writeRaw_era (sl : Bool) (i : Nat) (v : RawUnit) : (s.writeRaw sl i v).era = s.era := rfl
@[simp] theorem State.writeRaw_outEra (sl : Bool) (i : Nat) (v : RawUnit) : (s.writeRaw sl i v).outEra = s.outEra := rfl

/-! ### `State.writePacked` -/

@[simp] theorem State.writePacked_status (sl : Bool) (b : Nat) (v : Byte) : (s.writePacked sl b v).status = s.status := rfl
@[simp] theorem State.writePacked_err (sl : Bool) (b : Nat) (v : Byte) : (s.writePacked sl b v).err = s.err := rfl
@[simp] theorem State.writePacked_inLen (sl : Bool) (b : Nat) (v : Byte) : (s.writePacked sl b v).inLen = s.inLen := rfl
@[simp] theorem State.writePacked_outCount (sl : Bool) (b : Nat) (v : Byte) : (s.writePacked sl b v).outCount = s.outCount := rfl
@[simp] theorem State.writePacked_width1 (sl : Bool) (b : Nat) (v : Byte) : (s.writePacked sl b v).width1 = s.width1 := rfl
@[simp] theorem State.writePacked_width2 (sl : Bool) (b : Nat) (v : Byte) : (s.writePacked sl b v).width2 = s.width2 := rfl
@[simp] theorem State.writePacked_order (sl : Bool) (b : Nat) (v : Byte) : (s.writePacked sl b v).order = s.order := rfl
@[simp] theorem State.writePacked_mode (sl : Bool) (b : Nat) (v : Byte) : (s.writePacked sl b v).mode = s.mode := rfl
@[simp] theorem State.writePacked_curByte (sl : Bool) (b : Nat) (v : Byte) : (s.writePacked sl b v).curByte = s.curByte := rfl
@[simp] theorem State.writePacked_curBit (sl : Bool) (b : Nat) (v : Byte) : (s.writePacked sl b v).curBit = s.curBit := rfl
@[simp] theorem State.writePacked_byteIndex (sl : Bool) (b : Nat) (v : Byte) : (s.writePacked sl b v).byteIndex = s.byteIndex := rfl
@[simp] theorem State.writePacked_bitIndex (sl : Bool) (b : Nat) (v : Byte) : (s.writePacked sl b v).bitIndex = s.bitIndex := rfl
@[simp] theorem State.writePacked_stage (sl : Bool) (b : Nat) (v : Byte) : (s.writePacked sl b v).stage = s.stage := rfl
@[simp] theorem State.writePacked_slot (sl : Bool) (b : Nat) (v : Byte) : (s.writePacked sl b v).slot = s.slot := rfl
@[simp] theorem State.writePacked_m (sl : Bool) (b : Nat) (v : Byte) : (s.writePacked sl b v).m = s.m := rfl
@[simp] theorem State.writePacked_cnt (sl : Bool) (b : Nat) (v : Byte) : (s.writePacked sl b v).cnt = s.cnt := rfl
@[simp] theorem State.writePacked_g (sl : Bool) (b : Nat) (v : Byte) : (s.writePacked sl b v).g = s.g := rfl
@[simp] theorem State.writePacked_k (sl : Bool) (b : Nat) (v : Byte) : (s.writePacked sl b v).k = s.k := rfl
@[simp] theorem State.writePacked_n (sl : Bool) (b : Nat) (v : Byte) : (s.writePacked sl b v).n = s.n := rfl
@[simp] theorem State.writePacked_carry (sl : Bool) (b : Nat) (v : Byte) : (s.writePacked sl b v).carry = s.carry := rfl
@[simp] theorem State.writePacked_raw0 (sl : Bool) (b : Nat) (v : Byte) : (s.writePacked sl b v).raw0 = s.raw0 := rfl
@[simp] theorem State.writePacked_raw1 (sl : Bool) (b : Nat) (v : Byte) : (s.writePacked sl b v).raw1 = s.raw1 := rfl
@[simp] theorem State.writePacked_packed0 (sl : Bool) (b : Nat) (v : Byte) : (s.writePacked sl b v).packed0 = if sl then s.packed0 else Cells.write b v s.packed0 := rfl
@[simp] theorem State.writePacked_packed1 (sl : Bool) (b : Nat) (v : Byte) : (s.writePacked sl b v).packed1 = if sl then Cells.write b v s.packed1 else s.packed1 := rfl
@[simp] theorem State.writePacked_inMem (sl : Bool) (b : Nat) (v : Byte) : (s.writePacked sl b v).inMem = s.inMem := rfl
@[simp] theorem State.writePacked_outMem (sl : Bool) (b : Nat) (v : Byte) : (s.writePacked sl b v).outMem = s.outMem := rfl
@[simp] theorem State.writePacked_pending (sl : Bool) (b : Nat) (v : Byte) : (s.writePacked sl b v).pending = s.pending := rfl
@[simp] theorem State.writePacked_seen (sl : Bool) (b : Nat) (v : Byte) : (s.writePacked sl b v).seen = s.seen := rfl
@[simp] theorem State.writePacked_draws (sl : Bool) (b : Nat) (v : Byte) : (s.writePacked sl b v).draws = s.draws := rfl
@[simp] theorem State.writePacked_era (sl : Bool) (b : Nat) (v : Byte) : (s.writePacked sl b v).era = s.era := rfl
@[simp] theorem State.writePacked_outEra (sl : Bool) (b : Nat) (v : Byte) : (s.writePacked sl b v).outEra = s.outEra := rfl

/-! ### `State.nextSubPass` -/

@[simp] theorem State.nextSubPass_status : (s.nextSubPass).status = s.status := rfl
@[simp] theorem State.nextSubPass_err : (s.nextSubPass).err = s.err := rfl
@[simp] theorem State.nextSubPass_inLen : (s.nextSubPass).inLen = s.inLen := rfl
@[simp] theorem State.nextSubPass_outCount : (s.nextSubPass).outCount = s.outCount := rfl
@[simp] theorem State.nextSubPass_width1 : (s.nextSubPass).width1 = s.width1 := rfl
@[simp] theorem State.nextSubPass_width2 : (s.nextSubPass).width2 = s.width2 := rfl
@[simp] theorem State.nextSubPass_order : (s.nextSubPass).order = s.order := rfl
@[simp] theorem State.nextSubPass_mode : (s.nextSubPass).mode = s.mode := rfl
@[simp] theorem State.nextSubPass_curByte : (s.nextSubPass).curByte = s.curByte := rfl
@[simp] theorem State.nextSubPass_curBit : (s.nextSubPass).curBit = s.curBit := rfl
@[simp] theorem State.nextSubPass_byteIndex : (s.nextSubPass).byteIndex = s.byteIndex := rfl
@[simp] theorem State.nextSubPass_bitIndex : (s.nextSubPass).bitIndex = s.bitIndex := rfl
@[simp] theorem State.nextSubPass_stage : (s.nextSubPass).stage = s.stage := rfl
@[simp] theorem State.nextSubPass_slot : (s.nextSubPass).slot = s.slot := rfl
@[simp] theorem State.nextSubPass_m : (s.nextSubPass).m = !s.m := rfl
@[simp] theorem State.nextSubPass_cnt : (s.nextSubPass).cnt = s.cnt := rfl
@[simp] theorem State.nextSubPass_g : (s.nextSubPass).g = s.g := rfl
@[simp] theorem State.nextSubPass_k : (s.nextSubPass).k = s.k := rfl
@[simp] theorem State.nextSubPass_n : (s.nextSubPass).n = s.n := rfl
@[simp] theorem State.nextSubPass_carry : (s.nextSubPass).carry = s.carry := rfl
@[simp] theorem State.nextSubPass_raw0 : (s.nextSubPass).raw0 = s.raw0 := rfl
@[simp] theorem State.nextSubPass_raw1 : (s.nextSubPass).raw1 = s.raw1 := rfl
@[simp] theorem State.nextSubPass_packed0 : (s.nextSubPass).packed0 = s.packed0 := rfl
@[simp] theorem State.nextSubPass_packed1 : (s.nextSubPass).packed1 = s.packed1 := rfl
@[simp] theorem State.nextSubPass_inMem : (s.nextSubPass).inMem = s.inMem := rfl
@[simp] theorem State.nextSubPass_outMem : (s.nextSubPass).outMem = s.outMem := rfl
@[simp] theorem State.nextSubPass_pending : (s.nextSubPass).pending = s.pending := rfl
@[simp] theorem State.nextSubPass_seen : (s.nextSubPass).seen = s.seen := rfl
@[simp] theorem State.nextSubPass_draws : (s.nextSubPass).draws = s.draws := rfl
@[simp] theorem State.nextSubPass_era : (s.nextSubPass).era = s.era := rfl
@[simp] theorem State.nextSubPass_outEra : (s.nextSubPass).outEra = s.outEra := rfl

/-! ### `State.see` -/

@[simp] theorem State.see_status (v : Word) : (s.see v).status = s.status := rfl
@[simp] theorem State.see_err (v : Word) : (s.see v).err = s.err := rfl
@[simp] theorem State.see_inLen (v : Word) : (s.see v).inLen = s.inLen := rfl
@[simp] theorem State.see_outCount (v : Word) : (s.see v).outCount = s.outCount := rfl
@[simp] theorem State.see_width1 (v : Word) : (s.see v).width1 = s.width1 := rfl
@[simp] theorem State.see_width2 (v : Word) : (s.see v).width2 = s.width2 := rfl
@[simp] theorem State.see_order (v : Word) : (s.see v).order = s.order := rfl
@[simp] theorem State.see_mode (v : Word) : (s.see v).mode = s.mode := rfl
@[simp] theorem State.see_curByte (v : Word) : (s.see v).curByte = s.curByte := rfl
@[simp] theorem State.see_curBit (v : Word) : (s.see v).curBit = s.curBit := rfl
@[simp] theorem State.see_byteIndex (v : Word) : (s.see v).byteIndex = s.byteIndex := rfl
@[simp] theorem State.see_bitIndex (v : Word) : (s.see v).bitIndex = s.bitIndex := rfl
@[simp] theorem State.see_stage (v : Word) : (s.see v).stage = s.stage := rfl
@[simp] theorem State.see_slot (v : Word) : (s.see v).slot = s.slot := rfl
@[simp] theorem State.see_m (v : Word) : (s.see v).m = s.m := rfl
@[simp] theorem State.see_cnt (v : Word) : (s.see v).cnt = s.cnt := rfl
@[simp] theorem State.see_g (v : Word) : (s.see v).g = s.g := rfl
@[simp] theorem State.see_k (v : Word) : (s.see v).k = s.k := rfl
@[simp] theorem State.see_n (v : Word) : (s.see v).n = s.n := rfl
@[simp] theorem State.see_carry (v : Word) : (s.see v).carry = s.carry := rfl
@[simp] theorem State.see_raw0 (v : Word) : (s.see v).raw0 = s.raw0 := rfl
@[simp] theorem State.see_raw1 (v : Word) : (s.see v).raw1 = s.raw1 := rfl
@[simp] theorem State.see_packed0 (v : Word) : (s.see v).packed0 = s.packed0 := rfl
@[simp] theorem State.see_packed1 (v : Word) : (s.see v).packed1 = s.packed1 := rfl
@[simp] theorem State.see_inMem (v : Word) : (s.see v).inMem = s.inMem := rfl
@[simp] theorem State.see_outMem (v : Word) : (s.see v).outMem = s.outMem := rfl
@[simp] theorem State.see_pending (v : Word) : (s.see v).pending = s.pending := rfl
@[simp] theorem State.see_seen (v : Word) : (s.see v).seen = v :: s.seen := rfl
@[simp] theorem State.see_draws (v : Word) : (s.see v).draws = s.draws := rfl
@[simp] theorem State.see_era (v : Word) : (s.see v).era = s.era := rfl
@[simp] theorem State.see_outEra (v : Word) : (s.see v).outEra = s.outEra := rfl

/-! ### `State.seeDraw` -/

@[simp] theorem State.seeDraw_status (v : Word) : (s.seeDraw v).status = s.status := rfl
@[simp] theorem State.seeDraw_err (v : Word) : (s.seeDraw v).err = s.err := rfl
@[simp] theorem State.seeDraw_inLen (v : Word) : (s.seeDraw v).inLen = s.inLen := rfl
@[simp] theorem State.seeDraw_outCount (v : Word) : (s.seeDraw v).outCount = s.outCount := rfl
@[simp] theorem State.seeDraw_width1 (v : Word) : (s.seeDraw v).width1 = s.width1 := rfl
@[simp] theorem State.seeDraw_width2 (v : Word) : (s.seeDraw v).width2 = s.width2 := rfl
@[simp] theorem State.seeDraw_order (v : Word) : (s.seeDraw v).order = s.order := rfl
@[simp] theorem State.seeDraw_mode (v : Word) : (s.seeDraw v).mode = s.mode := rfl
@[simp] theorem State.seeDraw_curByte (v : Word) : (s.seeDraw v).curByte = s.curByte := rfl
@[simp] theorem State.seeDraw_curBit (v : Word) : (s.seeDraw v).curBit = s.curBit := rfl
@[simp] theorem State.seeDraw_byteIndex (v : Word) : (s.seeDraw v).byteIndex = s.byteIndex := rfl
@[simp] theorem State.seeDraw_bitIndex (v : Word) : (s.seeDraw v).bitIndex = s.bitIndex := rfl
@[simp] theorem State.seeDraw_stage (v : Word) : (s.seeDraw v).stage = s.stage := rfl
@[simp] theorem State.seeDraw_slot (v : Word) : (s.seeDraw v).slot = s.slot := rfl
@[simp] theorem State.seeDraw_m (v : Word) : (s.seeDraw v).m = s.m := rfl
@[simp] theorem State.seeDraw_cnt (v : Word) : (s.seeDraw v).cnt = s.cnt := rfl
@[simp] theorem State.seeDraw_g (v : Word) : (s.seeDraw v).g = s.g := rfl
@[simp] theorem State.seeDraw_k (v : Word) : (s.seeDraw v).k = s.k := rfl
@[simp] theorem State.seeDraw_n (v : Word) : (s.seeDraw v).n = s.n := rfl
@[simp] theorem State.seeDraw_carry (v : Word) : (s.seeDraw v).carry = s.carry := rfl
@[simp] theorem State.seeDraw_raw0 (v : Word) : (s.seeDraw v).raw0 = s.raw0 := rfl
@[simp] theorem State.seeDraw_raw1 (v : Word) : (s.seeDraw v).raw1 = s.raw1 := rfl
@[simp] theorem State.seeDraw_packed0 (v : Word) : (s.seeDraw v).packed0 = s.packed0 := rfl
@[simp] theorem State.seeDraw_packed1 (v : Word) : (s.seeDraw v).packed1 = s.packed1 := rfl
@[simp] theorem State.seeDraw_inMem (v : Word) : (s.seeDraw v).inMem = s.inMem := rfl
@[simp] theorem State.seeDraw_outMem (v : Word) : (s.seeDraw v).outMem = s.outMem := rfl
@[simp] theorem State.seeDraw_pending (v : Word) : (s.seeDraw v).pending = s.pending := rfl
@[simp] theorem State.seeDraw_seen (v : Word) : (s.seeDraw v).seen = v :: s.seen := rfl
@[simp] theorem State.seeDraw_draws (v : Word) : (s.seeDraw v).draws = s.draws + 1 := rfl
@[simp] theorem State.seeDraw_era (v : Word) : (s.seeDraw v).era = s.era := rfl
@[simp] theorem State.seeDraw_outEra (v : Word) : (s.seeDraw v).outEra = s.outEra := rfl

/-! ### `State.forget` -/

@[simp] theorem State.forget_status : (s.forget).status = s.status := rfl
@[simp] theorem State.forget_err : (s.forget).err = s.err := rfl
@[simp] theorem State.forget_inLen : (s.forget).inLen = s.inLen := rfl
@[simp] theorem State.forget_outCount : (s.forget).outCount = s.outCount := rfl
@[simp] theorem State.forget_width1 : (s.forget).width1 = s.width1 := rfl
@[simp] theorem State.forget_width2 : (s.forget).width2 = s.width2 := rfl
@[simp] theorem State.forget_order : (s.forget).order = s.order := rfl
@[simp] theorem State.forget_mode : (s.forget).mode = s.mode := rfl
@[simp] theorem State.forget_curByte : (s.forget).curByte = s.curByte := rfl
@[simp] theorem State.forget_curBit : (s.forget).curBit = s.curBit := rfl
@[simp] theorem State.forget_byteIndex : (s.forget).byteIndex = s.byteIndex := rfl
@[simp] theorem State.forget_bitIndex : (s.forget).bitIndex = s.bitIndex := rfl
@[simp] theorem State.forget_stage : (s.forget).stage = s.stage := rfl
@[simp] theorem State.forget_slot : (s.forget).slot = Config.freeSlot (s.era + 1) := rfl
@[simp] theorem State.forget_m : (s.forget).m = Config.freeM (s.era + 1) := rfl
@[simp] theorem State.forget_cnt : (s.forget).cnt = Config.freeCnt (s.era + 1) := rfl
@[simp] theorem State.forget_g : (s.forget).g = Config.freeG (s.era + 1) := rfl
@[simp] theorem State.forget_k : (s.forget).k = Config.freeK (s.era + 1) := rfl
@[simp] theorem State.forget_n : (s.forget).n = Config.freeN (s.era + 1) := rfl
@[simp] theorem State.forget_carry : (s.forget).carry = Config.freeCarry (s.era + 1) := rfl
@[simp] theorem State.forget_raw0 : (s.forget).raw0 = [] := rfl
@[simp] theorem State.forget_raw1 : (s.forget).raw1 = [] := rfl
@[simp] theorem State.forget_packed0 : (s.forget).packed0 = [] := rfl
@[simp] theorem State.forget_packed1 : (s.forget).packed1 = [] := rfl
@[simp] theorem State.forget_inMem : (s.forget).inMem = s.inMem := rfl
@[simp] theorem State.forget_outMem : (s.forget).outMem = s.outMem := rfl
@[simp] theorem State.forget_pending : (s.forget).pending = s.pending := rfl
@[simp] theorem State.forget_seen : (s.forget).seen = s.seen := rfl
@[simp] theorem State.forget_draws : (s.forget).draws = s.draws := rfl
@[simp] theorem State.forget_era : (s.forget).era = s.era + 1 := rfl
@[simp] theorem State.forget_outEra : (s.forget).outEra = s.outEra := rfl

/-! ### `State.abort` -/

@[simp] theorem State.abort_status (e : ErrCode) : (State.abort e s).status = .error := rfl
@[simp] theorem State.abort_err (e : ErrCode) : (State.abort e s).err = e := rfl
@[simp] theorem State.abort_inLen (e : ErrCode) : (State.abort e s).inLen = s.inLen := rfl
@[simp] theorem State.abort_outCount (e : ErrCode) : (State.abort e s).outCount = 0 := rfl
@[simp] theorem State.abort_width1 (e : ErrCode) : (State.abort e s).width1 = s.width1 := rfl
@[simp] theorem State.abort_width2 (e : ErrCode) : (State.abort e s).width2 = s.width2 := rfl
@[simp] theorem State.abort_order (e : ErrCode) : (State.abort e s).order = s.order := rfl
@[simp] theorem State.abort_mode (e : ErrCode) : (State.abort e s).mode = s.mode := rfl
@[simp] theorem State.abort_curByte (e : ErrCode) : (State.abort e s).curByte = s.byteIndex := rfl
@[simp] theorem State.abort_curBit (e : ErrCode) : (State.abort e s).curBit = s.bitIndex := rfl
@[simp] theorem State.abort_byteIndex (e : ErrCode) : (State.abort e s).byteIndex = s.byteIndex := rfl
@[simp] theorem State.abort_bitIndex (e : ErrCode) : (State.abort e s).bitIndex = s.bitIndex := rfl
@[simp] theorem State.abort_stage (e : ErrCode) : (State.abort e s).stage = .idle := rfl
@[simp] theorem State.abort_slot (e : ErrCode) : (State.abort e s).slot = Config.freeSlot (s.era + 1) := rfl
@[simp] theorem State.abort_m (e : ErrCode) : (State.abort e s).m = Config.freeM (s.era + 1) := rfl
@[simp] theorem State.abort_cnt (e : ErrCode) : (State.abort e s).cnt = Config.freeCnt (s.era + 1) := rfl
@[simp] theorem State.abort_g (e : ErrCode) : (State.abort e s).g = Config.freeG (s.era + 1) := rfl
@[simp] theorem State.abort_k (e : ErrCode) : (State.abort e s).k = Config.freeK (s.era + 1) := rfl
@[simp] theorem State.abort_n (e : ErrCode) : (State.abort e s).n = Config.freeN (s.era + 1) := rfl
@[simp] theorem State.abort_carry (e : ErrCode) : (State.abort e s).carry = Config.freeCarry (s.era + 1) := rfl
@[simp] theorem State.abort_raw0 (e : ErrCode) : (State.abort e s).raw0 = [] := rfl
@[simp] theorem State.abort_raw1 (e : ErrCode) : (State.abort e s).raw1 = [] := rfl
@[simp] theorem State.abort_packed0 (e : ErrCode) : (State.abort e s).packed0 = [] := rfl
@[simp] theorem State.abort_packed1 (e : ErrCode) : (State.abort e s).packed1 = [] := rfl
@[simp] theorem State.abort_inMem (e : ErrCode) : (State.abort e s).inMem = s.inMem := rfl
@[simp] theorem State.abort_outMem (e : ErrCode) : (State.abort e s).outMem = s.outMem := rfl
@[simp] theorem State.abort_pending (e : ErrCode) : (State.abort e s).pending = s.pending := rfl
@[simp] theorem State.abort_seen (e : ErrCode) : (State.abort e s).seen = s.seen := rfl
@[simp] theorem State.abort_draws (e : ErrCode) : (State.abort e s).draws = s.draws := rfl
@[simp] theorem State.abort_era (e : ErrCode) : (State.abort e s).era = s.era + 1 := rfl
@[simp] theorem State.abort_outEra (e : ErrCode) : (State.abort e s).outEra = s.outEra := rfl

/-! ### `State.finishDecode` -/

@[simp] theorem State.finishDecode_status : (s.finishDecode).status = .done := rfl
@[simp] theorem State.finishDecode_err : (s.finishDecode).err = .none := rfl
@[simp] theorem State.finishDecode_inLen : (s.finishDecode).inLen = s.inLen := rfl
@[simp] theorem State.finishDecode_outCount : (s.finishDecode).outCount = BitVec.ofNat 32 (outBytes s.w) := rfl
@[simp] theorem State.finishDecode_width1 : (s.finishDecode).width1 = s.width1 := rfl
@[simp] theorem State.finishDecode_width2 : (s.finishDecode).width2 = s.width2 := rfl
@[simp] theorem State.finishDecode_order : (s.finishDecode).order = s.order := rfl
@[simp] theorem State.finishDecode_mode : (s.finishDecode).mode = s.mode := rfl
@[simp] theorem State.finishDecode_curByte : (s.finishDecode).curByte = s.byteIndex := rfl
@[simp] theorem State.finishDecode_curBit : (s.finishDecode).curBit = s.bitIndex := rfl
@[simp] theorem State.finishDecode_byteIndex : (s.finishDecode).byteIndex = s.byteIndex := rfl
@[simp] theorem State.finishDecode_bitIndex : (s.finishDecode).bitIndex = s.bitIndex := rfl
@[simp] theorem State.finishDecode_stage : (s.finishDecode).stage = .idle := rfl
@[simp] theorem State.finishDecode_slot : (s.finishDecode).slot = Config.freeSlot (s.era + 1) := rfl
@[simp] theorem State.finishDecode_m : (s.finishDecode).m = Config.freeM (s.era + 1) := rfl
@[simp] theorem State.finishDecode_cnt : (s.finishDecode).cnt = Config.freeCnt (s.era + 1) := rfl
@[simp] theorem State.finishDecode_g : (s.finishDecode).g = Config.freeG (s.era + 1) := rfl
@[simp] theorem State.finishDecode_k : (s.finishDecode).k = Config.freeK (s.era + 1) := rfl
@[simp] theorem State.finishDecode_n : (s.finishDecode).n = Config.freeN (s.era + 1) := rfl
@[simp] theorem State.finishDecode_carry : (s.finishDecode).carry = Config.freeCarry (s.era + 1) := rfl
@[simp] theorem State.finishDecode_raw0 : (s.finishDecode).raw0 = [] := rfl
@[simp] theorem State.finishDecode_raw1 : (s.finishDecode).raw1 = [] := rfl
@[simp] theorem State.finishDecode_packed0 : (s.finishDecode).packed0 = [] := rfl
@[simp] theorem State.finishDecode_packed1 : (s.finishDecode).packed1 = [] := rfl
@[simp] theorem State.finishDecode_inMem : (s.finishDecode).inMem = s.inMem := rfl
@[simp] theorem State.finishDecode_outMem : (s.finishDecode).outMem = s.outMem := rfl
@[simp] theorem State.finishDecode_pending : (s.finishDecode).pending = s.pending := rfl
@[simp] theorem State.finishDecode_seen : (s.finishDecode).seen = s.seen := rfl
@[simp] theorem State.finishDecode_draws : (s.finishDecode).draws = s.draws := rfl
@[simp] theorem State.finishDecode_era : (s.finishDecode).era = s.era + 1 := rfl
@[simp] theorem State.finishDecode_outEra : (s.finishDecode).outEra = s.outEra := rfl

/-! ### `State.start` -/

@[simp] theorem State.start_status : (s.start).status = .busy := rfl
@[simp] theorem State.start_err : (s.start).err = .none := rfl
@[simp] theorem State.start_inLen : (s.start).inLen = s.inLen := rfl
@[simp] theorem State.start_outCount : (s.start).outCount = 0 := rfl
@[simp] theorem State.start_width1 : (s.start).width1 = 0 := rfl
@[simp] theorem State.start_width2 : (s.start).width2 = 0 := rfl
@[simp] theorem State.start_order : (s.start).order = false := rfl
@[simp] theorem State.start_mode : (s.start).mode = 0 := rfl
@[simp] theorem State.start_curByte : (s.start).curByte = s.curByte := rfl
@[simp] theorem State.start_curBit : (s.start).curBit = s.curBit := rfl
@[simp] theorem State.start_byteIndex : (s.start).byteIndex = 0 := rfl
@[simp] theorem State.start_bitIndex : (s.start).bitIndex = 7 := rfl
@[simp] theorem State.start_stage : (s.start).stage = .header .width1 := rfl
@[simp] theorem State.start_slot : (s.start).slot = s.slot := rfl
@[simp] theorem State.start_m : (s.start).m = s.m := rfl
@[simp] theorem State.start_cnt : (s.start).cnt = s.cnt := rfl
@[simp] theorem State.start_g : (s.start).g = s.g := rfl
@[simp] theorem State.start_k : (s.start).k = s.k := rfl
@[simp] theorem State.start_n : (s.start).n = s.n := rfl
@[simp] theorem State.start_carry : (s.start).carry = s.carry := rfl
@[simp] theorem State.start_raw0 : (s.start).raw0 = s.raw0 := rfl
@[simp] theorem State.start_raw1 : (s.start).raw1 = s.raw1 := rfl
@[simp] theorem State.start_packed0 : (s.start).packed0 = s.packed0 := rfl
@[simp] theorem State.start_packed1 : (s.start).packed1 = s.packed1 := rfl
@[simp] theorem State.start_inMem : (s.start).inMem = s.inMem := rfl
@[simp] theorem State.start_outMem : (s.start).outMem = s.outMem := rfl
@[simp] theorem State.start_pending : (s.start).pending = s.pending := rfl
@[simp] theorem State.start_seen : (s.start).seen = s.seen := rfl
@[simp] theorem State.start_draws : (s.start).draws = s.draws := rfl
@[simp] theorem State.start_era : (s.start).era = s.era := rfl
@[simp] theorem State.start_outEra : (s.start).outEra = s.outEra := rfl

/-! ### `State.resetInput` -/

@[simp] theorem State.resetInput_status : (s.resetInput).status = .idle := rfl
@[simp] theorem State.resetInput_err : (s.resetInput).err = .none := rfl
@[simp] theorem State.resetInput_inLen : (s.resetInput).inLen = 0 := rfl
@[simp] theorem State.resetInput_outCount : (s.resetInput).outCount = 0 := rfl
@[simp] theorem State.resetInput_width1 : (s.resetInput).width1 = 0 := rfl
@[simp] theorem State.resetInput_width2 : (s.resetInput).width2 = 0 := rfl
@[simp] theorem State.resetInput_order : (s.resetInput).order = false := rfl
@[simp] theorem State.resetInput_mode : (s.resetInput).mode = 0 := rfl
@[simp] theorem State.resetInput_curByte : (s.resetInput).curByte = 0 := rfl
@[simp] theorem State.resetInput_curBit : (s.resetInput).curBit = 7 := rfl
@[simp] theorem State.resetInput_byteIndex : (s.resetInput).byteIndex = 0 := rfl
@[simp] theorem State.resetInput_bitIndex : (s.resetInput).bitIndex = 7 := rfl
@[simp] theorem State.resetInput_stage : (s.resetInput).stage = .idle := rfl
@[simp] theorem State.resetInput_slot : (s.resetInput).slot = Config.freeSlot (s.era + 1) := rfl
@[simp] theorem State.resetInput_m : (s.resetInput).m = Config.freeM (s.era + 1) := rfl
@[simp] theorem State.resetInput_cnt : (s.resetInput).cnt = Config.freeCnt (s.era + 1) := rfl
@[simp] theorem State.resetInput_g : (s.resetInput).g = Config.freeG (s.era + 1) := rfl
@[simp] theorem State.resetInput_k : (s.resetInput).k = Config.freeK (s.era + 1) := rfl
@[simp] theorem State.resetInput_n : (s.resetInput).n = Config.freeN (s.era + 1) := rfl
@[simp] theorem State.resetInput_carry : (s.resetInput).carry = Config.freeCarry (s.era + 1) := rfl
@[simp] theorem State.resetInput_raw0 : (s.resetInput).raw0 = [] := rfl
@[simp] theorem State.resetInput_raw1 : (s.resetInput).raw1 = [] := rfl
@[simp] theorem State.resetInput_packed0 : (s.resetInput).packed0 = [] := rfl
@[simp] theorem State.resetInput_packed1 : (s.resetInput).packed1 = [] := rfl
@[simp] theorem State.resetInput_inMem : (s.resetInput).inMem = s.inMem := rfl
@[simp] theorem State.resetInput_outMem : (s.resetInput).outMem = if s.status = .busy then [] else s.outMem := rfl
@[simp] theorem State.resetInput_pending : (s.resetInput).pending = s.pending := rfl
@[simp] theorem State.resetInput_seen : (s.resetInput).seen = s.seen := rfl
@[simp] theorem State.resetInput_draws : (s.resetInput).draws = s.draws := rfl
@[simp] theorem State.resetInput_era : (s.resetInput).era = s.era + 1 := rfl
@[simp] theorem State.resetInput_outEra : (s.resetInput).outEra = if s.status = .busy then s.outEra + 1 else s.outEra := rfl

/-! ### `State.openPlane` -/

@[simp] theorem State.openPlane_status (b : Bool) : (s.openPlane b).status = s.status := rfl
@[simp] theorem State.openPlane_err (b : Bool) : (s.openPlane b).err = s.err := rfl
@[simp] theorem State.openPlane_inLen (b : Bool) : (s.openPlane b).inLen = s.inLen := rfl
@[simp] theorem State.openPlane_outCount (b : Bool) : (s.openPlane b).outCount = s.outCount := rfl
@[simp] theorem State.openPlane_width1 (b : Bool) : (s.openPlane b).width1 = s.width1 := rfl
@[simp] theorem State.openPlane_width2 (b : Bool) : (s.openPlane b).width2 = s.width2 := rfl
@[simp] theorem State.openPlane_order (b : Bool) : (s.openPlane b).order = s.order := rfl
@[simp] theorem State.openPlane_mode (b : Bool) : (s.openPlane b).mode = s.mode := rfl
@[simp] theorem State.openPlane_curByte (b : Bool) : (s.openPlane b).curByte = s.curByte := rfl
@[simp] theorem State.openPlane_curBit (b : Bool) : (s.openPlane b).curBit = s.curBit := rfl
@[simp] theorem State.openPlane_byteIndex (b : Bool) : (s.openPlane b).byteIndex = s.byteIndex := rfl
@[simp] theorem State.openPlane_bitIndex (b : Bool) : (s.openPlane b).bitIndex = s.bitIndex := rfl
@[simp] theorem State.openPlane_stage (b : Bool) : (s.openPlane b).stage = s.stage.body := rfl
@[simp] theorem State.openPlane_slot (b : Bool) : (s.openPlane b).slot = s.slot := rfl
@[simp] theorem State.openPlane_m (b : Bool) : (s.openPlane b).m = b := rfl
@[simp] theorem State.openPlane_cnt (b : Bool) : (s.openPlane b).cnt = 0 := rfl
@[simp] theorem State.openPlane_g (b : Bool) : (s.openPlane b).g = s.g := rfl
@[simp] theorem State.openPlane_k (b : Bool) : (s.openPlane b).k = s.k := rfl
@[simp] theorem State.openPlane_n (b : Bool) : (s.openPlane b).n = s.n := rfl
@[simp] theorem State.openPlane_carry (b : Bool) : (s.openPlane b).carry = s.carry := rfl
@[simp] theorem State.openPlane_raw0 (b : Bool) : (s.openPlane b).raw0 = s.raw0 := rfl
@[simp] theorem State.openPlane_raw1 (b : Bool) : (s.openPlane b).raw1 = s.raw1 := rfl
@[simp] theorem State.openPlane_packed0 (b : Bool) : (s.openPlane b).packed0 = s.packed0 := rfl
@[simp] theorem State.openPlane_packed1 (b : Bool) : (s.openPlane b).packed1 = s.packed1 := rfl
@[simp] theorem State.openPlane_inMem (b : Bool) : (s.openPlane b).inMem = s.inMem := rfl
@[simp] theorem State.openPlane_outMem (b : Bool) : (s.openPlane b).outMem = s.outMem := rfl
@[simp] theorem State.openPlane_pending (b : Bool) : (s.openPlane b).pending = s.pending := rfl
@[simp] theorem State.openPlane_seen (b : Bool) : (s.openPlane b).seen = s.seen := rfl
@[simp] theorem State.openPlane_draws (b : Bool) : (s.openPlane b).draws = s.draws := rfl
@[simp] theorem State.openPlane_era (b : Bool) : (s.openPlane b).era = s.era := rfl
@[simp] theorem State.openPlane_outEra (b : Bool) : (s.openPlane b).outEra = s.outEra := rfl

/-! ### `State.setMode` -/

@[simp] theorem State.setMode_status (v : BitVec 2) : (s.setMode v).status = s.status := rfl
@[simp] theorem State.setMode_err (v : BitVec 2) : (s.setMode v).err = s.err := rfl
@[simp] theorem State.setMode_inLen (v : BitVec 2) : (s.setMode v).inLen = s.inLen := rfl
@[simp] theorem State.setMode_outCount (v : BitVec 2) : (s.setMode v).outCount = s.outCount := rfl
@[simp] theorem State.setMode_width1 (v : BitVec 2) : (s.setMode v).width1 = s.width1 := rfl
@[simp] theorem State.setMode_width2 (v : BitVec 2) : (s.setMode v).width2 = s.width2 := rfl
@[simp] theorem State.setMode_order (v : BitVec 2) : (s.setMode v).order = s.order := rfl
@[simp] theorem State.setMode_mode (v : BitVec 2) : (s.setMode v).mode = v := rfl
@[simp] theorem State.setMode_curByte (v : BitVec 2) : (s.setMode v).curByte = s.curByte := rfl
@[simp] theorem State.setMode_curBit (v : BitVec 2) : (s.setMode v).curBit = s.curBit := rfl
@[simp] theorem State.setMode_byteIndex (v : BitVec 2) : (s.setMode v).byteIndex = s.byteIndex := rfl
@[simp] theorem State.setMode_bitIndex (v : BitVec 2) : (s.setMode v).bitIndex = s.bitIndex := rfl
@[simp] theorem State.setMode_stage (v : BitVec 2) : (s.setMode v).stage = .planeB .start := rfl
@[simp] theorem State.setMode_slot (v : BitVec 2) : (s.setMode v).slot = !s.order := rfl
@[simp] theorem State.setMode_m (v : BitVec 2) : (s.setMode v).m = s.m := rfl
@[simp] theorem State.setMode_cnt (v : BitVec 2) : (s.setMode v).cnt = s.cnt := rfl
@[simp] theorem State.setMode_g (v : BitVec 2) : (s.setMode v).g = s.g := rfl
@[simp] theorem State.setMode_k (v : BitVec 2) : (s.setMode v).k = s.k := rfl
@[simp] theorem State.setMode_n (v : BitVec 2) : (s.setMode v).n = s.n := rfl
@[simp] theorem State.setMode_carry (v : BitVec 2) : (s.setMode v).carry = s.carry := rfl
@[simp] theorem State.setMode_raw0 (v : BitVec 2) : (s.setMode v).raw0 = s.raw0 := rfl
@[simp] theorem State.setMode_raw1 (v : BitVec 2) : (s.setMode v).raw1 = s.raw1 := rfl
@[simp] theorem State.setMode_packed0 (v : BitVec 2) : (s.setMode v).packed0 = s.packed0 := rfl
@[simp] theorem State.setMode_packed1 (v : BitVec 2) : (s.setMode v).packed1 = s.packed1 := rfl
@[simp] theorem State.setMode_inMem (v : BitVec 2) : (s.setMode v).inMem = s.inMem := rfl
@[simp] theorem State.setMode_outMem (v : BitVec 2) : (s.setMode v).outMem = s.outMem := rfl
@[simp] theorem State.setMode_pending (v : BitVec 2) : (s.setMode v).pending = s.pending := rfl
@[simp] theorem State.setMode_seen (v : BitVec 2) : (s.setMode v).seen = s.seen := rfl
@[simp] theorem State.setMode_draws (v : BitVec 2) : (s.setMode v).draws = s.draws := rfl
@[simp] theorem State.setMode_era (v : BitVec 2) : (s.setMode v).era = s.era := rfl
@[simp] theorem State.setMode_outEra (v : BitVec 2) : (s.setMode v).outEra = s.outEra := rfl

/-! ### The width, which only the header writes -/

@[simp] theorem State.pop_w : (s.pop).w = s.w := rfl
@[simp] theorem State.writeIn_w (a : Nat) (v : Byte) : (s.writeIn a v).w = s.w := rfl
@[simp] theorem State.writeOut_w (a : Nat) (v : Byte) : (s.writeOut a v).w = s.w := rfl
@[simp] theorem State.writeRaw_w (sl : Bool) (i : Nat) (v : RawUnit) : (s.writeRaw sl i v).w = s.w := rfl
@[simp] theorem State.writePacked_w (sl : Bool) (b : Nat) (v : Byte) : (s.writePacked sl b v).w = s.w := rfl
@[simp] theorem State.nextSubPass_w : (s.nextSubPass).w = s.w := rfl
@[simp] theorem State.see_w (v : Word) : (s.see v).w = s.w := rfl
@[simp] theorem State.seeDraw_w (v : Word) : (s.seeDraw v).w = s.w := rfl
@[simp] theorem State.forget_w : (s.forget).w = s.w := rfl
@[simp] theorem State.abort_w (e : ErrCode) : (State.abort e s).w = s.w := rfl
@[simp] theorem State.finishDecode_w : (s.finishDecode).w = s.w := rfl
@[simp] theorem State.openPlane_w (b : Bool) : (s.openPlane b).w = s.w := rfl
@[simp] theorem State.setMode_w (v : BitVec 2) : (s.setMode v).w = s.w := rfl

/-- The width is the header field WIDTH, so an update that keeps the field keeps it. -/
theorem State.w_eq : s.w = s.width1.toNat := rfl

end Sys2Proof.Machine
end

