-- ==== Sys2Proof/Laws/Ops.lean ====
section
/-! SUPPORT. What each shared operation can do, said once: the bit reader, loops, reads after writes, the parse-state
guard, and the canonical form kept by every operation that writes cells. -/

namespace Sys2Proof.Machine

/-! ### Loops -/

@[simp] theorem loop_zero (body : Nat → State → State) (s : State) : loop 0 body s = s := rfl

theorem loop_succ (n : Nat) (body : Nat → State → State) (s : State) :
    loop (n + 1) body s = body n (loop n body s) := rfl

/-- Whatever every turn of a loop keeps, the loop keeps. -/
theorem loop_keeps {P : State → Prop} {n : Nat} {body : Nat → State → State} {s : State}
    (hbody : ∀ i < n, ∀ t, P t → P (body i t)) (hs : P s) : P (loop n body s) := by
  induction n with
  | zero => exact hs
  | succ n ih => exact hbody n (Nat.lt_succ_self n) _ (ih fun i hi => hbody i (Nat.lt_succ_of_lt hi))

/-- A loop whose every turn writes RAW only, writes RAW only. -/
theorem loop_raw_frame {n : Nat} {body : Nat → State → State} {s : State}
    (hbody : ∀ i t, body i t = { t with raw0 := (body i t).raw0, raw1 := (body i t).raw1 }) :
    loop n body s = { s with raw0 := (loop n body s).raw0, raw1 := (loop n body s).raw1 } := by
  refine loop_keeps (P := fun t => t = { s with raw0 := t.raw0, raw1 := t.raw1 }) (fun i _ t ht => ?_) rfl
  generalize hu : body i t = u
  have hb := hbody i t
  rw [hu] at hb
  rw [ht] at hb
  exact hb

/-- A loop whose every turn writes the packed planes and the carry only, writes only them. -/
theorem loop_packed_frame {n : Nat} {body : Nat → State → State} {s : State}
    (hbody : ∀ i t, SameButPacked t (body i t)) : SameButPacked s (loop n body s) := by
  refine loop_keeps (P := SameButPacked s) (fun i _ t ht => ?_) rfl
  have hb := hbody i t
  unfold SameButPacked at *
  generalize body i t = u at hb ⊢
  rw [ht] at hb
  exact hb

/-- A loop whose every turn writes OUT only, writes OUT only. -/
theorem loop_out_frame {n : Nat} {body : Nat → State → State} {s : State}
    (hbody : ∀ i t, body i t = { t with outMem := (body i t).outMem }) :
    loop n body s = { s with outMem := (loop n body s).outMem } := by
  refine loop_keeps (P := fun t => t = { s with outMem := t.outMem }) (fun i _ t ht => ?_) rfl
  generalize hu : body i t = u
  have hb := hbody i t
  rw [hu] at hb
  rw [ht] at hb
  exact hb

/-- The zero units of a run go to RAW and nowhere else. -/
theorem State.appendZeros_frame (s : State) (a : Nat) :
    s.appendZeros a = { s with raw0 := (s.appendZeros a).raw0, raw1 := (s.appendZeros a).raw1 } :=
  loop_raw_frame fun _ _ => rfl

/-- Writing a list of packed bytes changes the packed planes only. -/
theorem State.writePackedFrom_frame (s : State) (sl : Bool) (b : Nat) (vs : List Byte) :
    SameButPacked s (s.writePackedFrom sl b vs) := by
  induction vs generalizing s b with
  | nil => rfl
  | cons v rest ih =>
    have h := ih (s.writePacked sl b v) (b + 1)
    unfold SameButPacked at h ⊢
    exact h

/-- A swap of blocks writes OUT only. -/
theorem State.swapBlocks_frame (s : State) (i j : Nat) :
    s.swapBlocks i j = { s with outMem := (s.swapBlocks i j).outMem } :=
  loop_out_frame fun _ _ => rfl

/-! ### The bit reader -/

theorem State.readBit_eq_none_iff (s : State) : s.readBit = none ↔ s.inLen.toNat ≤ s.byteIndex.toNat := by
  unfold State.readBit
  split
  · simp [*]
  · simp only [*, iff_false]
    intro h
    split at h <;> cases h

/-- A bit read changes the cursor only. -/
theorem State.readBit_frame {s t : State} {b : Bool} (h : s.readBit = some (b, t)) :
    t = { s with byteIndex := t.byteIndex, bitIndex := t.bitIndex } := by
  unfold State.readBit at h
  split at h
  · cases h
  · split at h <;> cases h <;> rfl

/-- A bit read moves the cursor one bit on and never past the end. -/
theorem State.readBit_bitPos {s t : State} {b : Bool} (h : s.readBit = some (b, t)) :
    t.bitPos = s.bitPos + 1 ∧ t.bitPos ≤ s.streamBits := by
  unfold State.readBit at h
  split at h
  · cases h
  · next hlt =>
    have hb := s.bitIndex.isLt
    have hL := s.inLen.isLt
    split at h
    · next h0 =>
      cases h
      have h1 : (s.byteIndex + 1).toNat = s.byteIndex.toNat + 1 := by
        rw [BitVec.toNat_add]; simp; omega
      simp [State.bitPos, State.streamBits, h0]
      omega
    · next h0 =>
      cases h
      have hne : s.bitIndex.toNat ≠ 0 := fun hh => h0 (BitVec.eq_of_toNat_eq (by simpa using hh))
      have h1 : (s.bitIndex - 1).toNat = s.bitIndex.toNat - 1 := by
        rw [BitVec.toNat_sub]; simp; omega
      simp [State.bitPos, State.streamBits]
      omega

theorem State.peekBits_length_le (n : Nat) (s : State) : (s.peekBits n).length ≤ n := by
  induction n generalizing s with
  | zero => simp [State.peekBits]
  | succ n ih =>
    simp only [State.peekBits]
    split
    · simp
    · simpa using ih _

/-- Consuming bits changes the cursor only. -/
theorem State.consume_frame (n : Nat) (s : State) :
    s.consume n = { s with byteIndex := (s.consume n).byteIndex, bitIndex := (s.consume n).bitIndex } := by
  induction n generalizing s with
  | zero => rfl
  | succ n ih =>
    simp only [State.consume]
    split
    · rfl
    · next b t h =>
      have hf := State.readBit_frame h
      have hc := ih t
      rw [hf] at hc
      rw [hf]
      exact hc

/-- The parse state does not depend on the cursor. -/
theorem State.parse_consume (n : Nat) (s : State) : (s.consume n).parse = s.parse := by
  rw [State.consume_frame]; rfl

/-! ### Reads after writes -/

theorem State.inByte_writeIn (s : State) (a b : Nat) (v : Byte) :
    (s.writeIn a v).inByte b = if b = a then v else s.inByte b := by
  simp only [State.inByte, State.writeIn_inMem, Cells.read?_write]
  split <;> simp

theorem State.outByte_writeOut (s : State) (a b : Nat) (v : Byte) :
    (s.writeOut a v).outByte b = if b = a then v else s.outByte b := by
  simp only [State.outByte, State.writeOut_outMem, State.writeOut_outEra, Cells.read?_write]
  split <;> simp

theorem State.rawCells_writeRaw (s : State) (sl sl' : Bool) (i : Nat) (v : RawUnit) :
    (s.writeRaw sl i v).rawCells sl' =
      if sl' = sl then Cells.write i v (s.rawCells sl) else s.rawCells sl' := by
  cases sl <;> cases sl' <;> simp [State.rawCells]

theorem State.packedCells_writePacked (s : State) (sl sl' : Bool) (b : Nat) (v : Byte) :
    (s.writePacked sl b v).packedCells sl' =
      if sl' = sl then Cells.write b v (s.packedCells sl) else s.packedCells sl' := by
  cases sl <;> cases sl' <;> simp [State.packedCells]

theorem State.rawUnit_writeRaw (s : State) (sl sl' : Bool) (i j : Nat) (v : RawUnit) :
    (s.writeRaw sl i v).rawUnit sl' j = if sl' = sl ∧ j = i then v else s.rawUnit sl' j := by
  simp only [State.rawUnit, State.rawCells_writeRaw, State.writeRaw_era]
  by_cases h : sl' = sl
  · subst h
    simp only [if_true, Cells.read?_write, true_and]
    split <;> simp
  · simp [h]

theorem State.packedByte_writePacked (s : State) (sl sl' : Bool) (a b : Nat) (v : Byte) :
    (s.writePacked sl a v).packedByte sl' b = if sl' = sl ∧ b = a then v else s.packedByte sl' b := by
  simp only [State.packedByte, State.packedCells_writePacked, State.writePacked_era]
  by_cases h : sl' = sl
  · subst h
    simp only [if_true, Cells.read?_write, true_and]
    split <;> simp
  · simp [h]

/-! ### The canonical form -/

/-- Every memory and plane is in canonical form. -/
def CellsWf (s : State) : Prop :=
  Memory.wf s.inMem = true ∧ Memory.wf s.outMem = true
  ∧ (∀ sl, Cells.wf (s.rawCells sl) = true) ∧ (∀ sl, Memory.wf (s.packedCells sl) = true)

theorem reset_cells_wf : CellsWf State.reset := by
  refine ⟨rfl, rfl, ?_, ?_⟩ <;> intro sl <;> cases sl <;> rfl

theorem writeIn_wf {s : State} (h : CellsWf s) (a : Nat) (v : Byte) : CellsWf (s.writeIn a v) :=
  ⟨Cells.write_wf a v _ h.1, h.2.1, h.2.2.1, h.2.2.2⟩

theorem writeOut_wf {s : State} (h : CellsWf s) (a : Nat) (v : Byte) : CellsWf (s.writeOut a v) :=
  ⟨h.1, Cells.write_wf a v _ h.2.1, h.2.2.1, h.2.2.2⟩

theorem writeRaw_wf {s : State} (h : CellsWf s) (sl : Bool) (i : Nat) (v : RawUnit) :
    CellsWf (s.writeRaw sl i v) := by
  refine ⟨h.1, h.2.1, fun sl' => ?_, h.2.2.2⟩
  rw [State.rawCells_writeRaw]
  split
  · exact Cells.write_wf i v _ (h.2.2.1 sl)
  · exact h.2.2.1 sl'

theorem writePacked_wf {s : State} (h : CellsWf s) (sl : Bool) (b : Nat) (v : Byte) :
    CellsWf (s.writePacked sl b v) := by
  refine ⟨h.1, h.2.1, h.2.2.1, fun sl' => ?_⟩
  rw [State.packedCells_writePacked]
  split
  · exact Cells.write_wf b v _ (h.2.2.2 sl)
  · exact h.2.2.2 sl'

theorem writePackedFrom_wf {s : State} (h : CellsWf s) (sl : Bool) (b : Nat) (vs : List Byte) :
    CellsWf (s.writePackedFrom sl b vs) := by
  induction vs generalizing s b with
  | nil => exact h
  | cons v rest ih => exact ih (writePacked_wf h sl b v) (b + 1)

theorem packPlane_wf {s : State} (h : CellsWf s) (sl : Bool) : CellsWf (s.packPlane sl) :=
  writePackedFrom_wf h sl 0 _

theorem appendZeros_wf {s : State} (h : CellsWf s) (a : Nat) : CellsWf (s.appendZeros a) :=
  loop_keeps (fun _ _ _ ht => writeRaw_wf ht ..) h

theorem grayAt_wf {s : State} (h : CellsWf s) (sl : Bool) (b : Nat) : CellsWf (s.grayAt sl b) :=
  writePacked_wf h sl b _

theorem grayPlane_wf {s : State} (h : CellsWf s) (sl : Bool) : CellsWf (s.grayPlane sl) :=
  loop_keeps (fun _ _ t (ht : CellsWf t) =>
    loop_keeps (s := { t with carry := false }) (fun _ _ _ hu => grayAt_wf hu ..) ht) h

theorem xorPlanes_wf {s : State} (h : CellsWf s) : CellsWf s.xorPlanes :=
  loop_keeps (fun _ _ _ ht => writePacked_wf ht ..) h

theorem interleave_wf {s : State} (h : CellsWf s) : CellsWf s.interleave :=
  loop_keeps (fun _ _ _ ht => writeOut_wf (writeOut_wf ht ..) ..) h

theorem swapBlocks_wf {s : State} (h : CellsWf s) (i j : Nat) : CellsWf (s.swapBlocks i j) :=
  loop_keeps (fun _ _ _ ht => writeOut_wf (writeOut_wf ht ..) ..) h

theorem transpose_wf {s : State} (h : CellsWf s) : CellsWf s.transpose :=
  loop_keeps (fun _ _ t (ht : CellsWf t) => by
    split
    · exact swapBlocks_wf ht ..
    · exact ht) h

theorem forget_wf {s : State} (h : CellsWf s) : CellsWf s.forget := by
  refine ⟨h.1, h.2.1, ?_, ?_⟩ <;> intro sl <;> cases sl <;> rfl

theorem hostEffect_wf {s : State} (h : CellsWf s) (a : Access) : CellsWf (s.hostEffect a) := by
  cases a with
  | regRead _ off =>
    simp only [State.hostEffect, State.regRead, State.seeResult]
    repeat' split
    all_goals exact h
  | regWrite _ off v =>
    simp only [State.hostEffect, State.regWrite]
    split <;> exact h
  | inRead _ a => exact h
  | inWrite _ a v =>
    simp only [State.hostEffect]
    split
    · exact h
    · exact writeIn_wf h a v
  | outRead _ a =>
    simp only [State.hostEffect, State.outRead]
    split <;> exact h
  | outWrite _ a v => exact h

/-! ### The parse-state guard -/

/-- A guarded meaning that answers a next state stands in its place. -/
theorem State.inPlace_next_iff (s t : State) (p : ParseState) (r : Result) :
    s.inPlace p r = .next t ↔ s.parse = some p ∧ r = .next t := by
  unfold State.inPlace
  split
  · simp [*]
  · simp [*]

theorem State.inPlace_of_parse {s : State} {p : ParseState} (h : s.parse = some p) (r : Result) :
    s.inPlace p r = r := by
  simp [State.inPlace, h]

/-- A parse state exists only while BUSY. -/
theorem State.busy_of_parse {s : State} {p : ParseState} (h : s.parse = some p) : s.status = .busy := by
  unfold State.parse at h
  split at h
  · assumption
  · cases h

/-- An instruction that answers a next state stands at its place, or is the START command. -/
theorem exec_next_place {i : Instr} {s t : State} (h : exec i s = .next t) :
    s.parse = some i.place ∨ ∃ x, i = .cmdStart x := by
  cases i with
  | cmdStart x => exact .inr ⟨x, rfl⟩
  | _ => exact .inl ((State.inPlace_next_iff ..).mp h).1

/-! ### Host accesses and engine work -/

/-- A host access is performed exactly when it is of the interface. -/
theorem State.hostAccess_next_iff (s t : State) (a : Access) :
    s.hostAccess a = .next t ↔ a.wf = true ∧ t = s.hostEffect a := by
  unfold State.hostAccess
  split
  · simp [*, eq_comm]
  · simp [*]

/-- What an engine step that reads no stream can do. -/
theorem State.engineWork_cases {s t : State} (h : s.engineWork = .next t) :
    (s.stage = .planeA .body ∧ t = { s.packPlane s.slot with stage := .mode })
    ∨ (s.stage = .planeB .body ∧ t = { s.packPlane s.slot with stage := .merge })
    ∨ (s.stage = .merge ∧ s.mode = 0 ∧ t = { s.mergeMode0 with stage := .output })
    ∨ (s.stage = .merge ∧ s.mode = 1 ∧ t = { s.mergeMode1 with stage := .output })
    ∨ (s.stage = .merge ∧ s.mode = 2 ∧ t = { s.mergeMode2 with stage := .output })
    ∨ (s.stage = .output ∧ t = { s.interleave.transpose with stage := .finish })
    ∨ (s.stage = .finish ∧ t = s.finishDecode) := by
  unfold State.engineWork at h
  split at h
  · exact .inl ⟨‹_›, by cases h; rfl⟩
  · exact .inr (.inl ⟨‹_›, by cases h; rfl⟩)
  · next hs =>
    unfold State.merge at h
    split at h
    · exact .inr (.inr (.inl ⟨hs, ‹_›, by cases h; rfl⟩))
    · split at h
      · exact .inr (.inr (.inr (.inl ⟨hs, ‹_›, by cases h; rfl⟩)))
      · split at h
        · exact .inr (.inr (.inr (.inr (.inl ⟨hs, ‹_›, by cases h; rfl⟩))))
        · cases h
  · exact .inr (.inr (.inr (.inr (.inr (.inl ⟨‹_›, by cases h; rfl⟩)))))
  · exact .inr (.inr (.inr (.inr (.inr (.inr ⟨‹_›, by cases h; rfl⟩)))))
  · cases h

end Sys2Proof.Machine
end

