-- ==== Sys2Proof/Laws/PerInstr.lean ====
section
/-! SUPPORT. Facts about instructions as syntax, one lemma per constructor. Family CodeLength: an instruction's encoding
has the length of the encoding table, between 1 and 32 bits. -/

namespace Sys2Proof

@[simp] theorem bitsOf_length {n : Nat} (v : BitVec n) : (bitsOf v).length = n := by
  induction n with
  | zero => rfl
  | succ n ih => simp [bitsOf, ih]

@[simp] theorem encodeRun_length {n : Nat} (k : Nat) (x : BitVec n) : (encodeRun k x).length = k + (n + 1) := by
  simp [encodeRun]

/-- The length of an instruction's encoding (R57). -/
def Laws.CodeLength.Statement (i : Instr) : Prop :=
  (encode i).length = i.codeLength ∧ 1 ≤ i.codeLength ∧ i.codeLength ≤ 32

theorem Laws.CodeLength.hdrWidth1 (x : BitVec 4) : Laws.CodeLength.Statement (.hdrWidth1 x) := by
  simp [Laws.CodeLength.Statement, encode, Instr.codeLength]

theorem Laws.CodeLength.hdrWidth2 (x : BitVec 4) : Laws.CodeLength.Statement (.hdrWidth2 x) := by
  simp [Laws.CodeLength.Statement, encode, Instr.codeLength]

theorem Laws.CodeLength.hdrOrder (x : Bool) : Laws.CodeLength.Statement (.hdrOrder x) := by
  simp [Laws.CodeLength.Statement, encode, Instr.codeLength]

theorem Laws.CodeLength.pmodeRun : Laws.CodeLength.Statement .pmodeRun := by
  simp [Laws.CodeLength.Statement, encode, Instr.codeLength]

theorem Laws.CodeLength.pmodeLit : Laws.CodeLength.Statement .pmodeLit := by
  simp [Laws.CodeLength.Statement, encode, Instr.codeLength]

theorem Laws.CodeLength.litEnd : Laws.CodeLength.Statement .litEnd := by
  simp [Laws.CodeLength.Statement, encode, Instr.codeLength]

theorem Laws.CodeLength.lit1 : Laws.CodeLength.Statement .lit1 := by
  simp [Laws.CodeLength.Statement, encode, Instr.codeLength]

theorem Laws.CodeLength.lit2 : Laws.CodeLength.Statement .lit2 := by
  simp [Laws.CodeLength.Statement, encode, Instr.codeLength]

theorem Laws.CodeLength.lit3 : Laws.CodeLength.Statement .lit3 := by
  simp [Laws.CodeLength.Statement, encode, Instr.codeLength]

theorem Laws.CodeLength.runK0 (x : BitVec 1) : Laws.CodeLength.Statement (.runK0 x) := by
  simp [Laws.CodeLength.Statement, encode, Instr.codeLength]

theorem Laws.CodeLength.runK1 (x : BitVec 2) : Laws.CodeLength.Statement (.runK1 x) := by
  simp [Laws.CodeLength.Statement, encode, Instr.codeLength]

theorem Laws.CodeLength.runK2 (x : BitVec 3) : Laws.CodeLength.Statement (.runK2 x) := by
  simp [Laws.CodeLength.Statement, encode, Instr.codeLength]

theorem Laws.CodeLength.runK3 (x : BitVec 4) : Laws.CodeLength.Statement (.runK3 x) := by
  simp [Laws.CodeLength.Statement, encode, Instr.codeLength]

theorem Laws.CodeLength.runK4 (x : BitVec 5) : Laws.CodeLength.Statement (.runK4 x) := by
  simp [Laws.CodeLength.Statement, encode, Instr.codeLength]

theorem Laws.CodeLength.runK5 (x : BitVec 6) : Laws.CodeLength.Statement (.runK5 x) := by
  simp [Laws.CodeLength.Statement, encode, Instr.codeLength]

theorem Laws.CodeLength.runK6 (x : BitVec 7) : Laws.CodeLength.Statement (.runK6 x) := by
  simp [Laws.CodeLength.Statement, encode, Instr.codeLength]

theorem Laws.CodeLength.runK7 (x : BitVec 8) : Laws.CodeLength.Statement (.runK7 x) := by
  simp [Laws.CodeLength.Statement, encode, Instr.codeLength]

theorem Laws.CodeLength.runK8 (x : BitVec 9) : Laws.CodeLength.Statement (.runK8 x) := by
  simp [Laws.CodeLength.Statement, encode, Instr.codeLength]

theorem Laws.CodeLength.runK9 (x : BitVec 10) : Laws.CodeLength.Statement (.runK9 x) := by
  simp [Laws.CodeLength.Statement, encode, Instr.codeLength]

theorem Laws.CodeLength.runK10 (x : BitVec 11) : Laws.CodeLength.Statement (.runK10 x) := by
  simp [Laws.CodeLength.Statement, encode, Instr.codeLength]

theorem Laws.CodeLength.runK11 (x : BitVec 12) : Laws.CodeLength.Statement (.runK11 x) := by
  simp [Laws.CodeLength.Statement, encode, Instr.codeLength]

theorem Laws.CodeLength.runK12 (x : BitVec 13) : Laws.CodeLength.Statement (.runK12 x) := by
  simp [Laws.CodeLength.Statement, encode, Instr.codeLength]

theorem Laws.CodeLength.runK13 (x : BitVec 14) : Laws.CodeLength.Statement (.runK13 x) := by
  simp [Laws.CodeLength.Statement, encode, Instr.codeLength]

theorem Laws.CodeLength.runK14 (x : BitVec 15) : Laws.CodeLength.Statement (.runK14 x) := by
  simp [Laws.CodeLength.Statement, encode, Instr.codeLength]

theorem Laws.CodeLength.runK15 (x : BitVec 16) : Laws.CodeLength.Statement (.runK15 x) := by
  simp [Laws.CodeLength.Statement, encode, Instr.codeLength]

theorem Laws.CodeLength.runInvalid : Laws.CodeLength.Statement .runInvalid := by
  simp [Laws.CodeLength.Statement, encode, Instr.codeLength]

theorem Laws.CodeLength.mode0 : Laws.CodeLength.Statement .mode0 := by
  simp [Laws.CodeLength.Statement, encode, Instr.codeLength]

theorem Laws.CodeLength.mode1 : Laws.CodeLength.Statement .mode1 := by
  simp [Laws.CodeLength.Statement, encode, Instr.codeLength]

theorem Laws.CodeLength.mode2 : Laws.CodeLength.Statement .mode2 := by
  simp [Laws.CodeLength.Statement, encode, Instr.codeLength]

theorem Laws.CodeLength.cmdStart (x : BitVec 31) : Laws.CodeLength.Statement (.cmdStart x) := by
  simp [Laws.CodeLength.Statement, encode, Instr.codeLength]

end Sys2Proof
end

