-- ==== Sys2Proof/Laws/Step.lean ====
section
/-! SUPPORT. What a step can do, said once: whose turn it is, and the cases of its answer. -/

namespace Sys2Proof.Machine

theorem State.pop_of_engineNext {s : State} (h : s.engineNext = true) : s.fetch = s.pop.fetchEngine := by
  obtain ⟨⟩ := s
  rename_i pending _ _ _ _
  match pending, h with
  | [], _ => rfl
  | .engine :: _, _ => rfl

theorem State.fetch_access {s : State} {a : Access} {rest : List Event} (h : s.pending = .access a :: rest) :
    s.fetch = State.fetchAccess { s with pending := rest } a := by
  simp [State.fetch, h]

theorem State.fetch_reset {s : State} {rest : List Event} (h : s.pending = .reset :: rest) :
    s.fetch = .reset { s with pending := rest } := by
  simp [State.fetch, h]

/-- What the engine's turn can be. -/
theorem State.fetchEngine_cases (s : State) :
    (s.status ≠ .busy ∧ s.fetchEngine = .wait s)
    ∨ (s.status = .busy ∧ s.parse = none ∧ s.fetchEngine = .work s)
    ∨ (∃ p, s.parse = some p ∧ s.fetchEngine = s.fetchCode p) := by
  by_cases hb : s.status = .busy
  · cases hp : s.parse with
    | none => exact .inr (.inl ⟨hb, rfl, by simp [State.fetchEngine, hb, hp]⟩)
    | some p => exact .inr (.inr ⟨p, rfl, by simp [State.fetchEngine, hb, hp]⟩)
  · exact .inl ⟨hb, by simp [State.fetchEngine, hb]⟩

/-- What the fetch of a code word can be. -/
theorem State.fetchCode_cases (s : State) (p : ParseState) :
    (∃ i rest, decode p (s.peekBits window) = .code i rest
      ∧ s.fetchCode p = .instr i (s.consume ((s.peekBits window).length - rest.length)))
    ∨ (∃ why, decode p (s.peekBits window) = .reject why
      ∧ s.fetchCode p = .outOfData (s.consume (s.peekBits window).length)) := by
  cases h : decode p (s.peekBits window) with
  | code i rest => exact .inl ⟨i, rest, rfl, by simp [State.fetchCode, h]⟩
  | reject why => exact .inr ⟨why, rfl, by simp [State.fetchCode, h]⟩

/-- What a host access is fetched as: the START command, or an access. -/
theorem State.fetchAccess_cases (s : State) (a : Access) :
    s.fetchAccess a = .access a s
    ∨ ∃ v i rest, a = .regWrite 4 0 v ∧ decode .ctrlWrite (bitsOf v) = .code i rest
        ∧ s.fetchAccess a = .instr i s := by
  unfold State.fetchAccess
  split
  · next v =>
    split
    · next i rest h => exact .inr ⟨v, i, rest, rfl, h, rfl⟩
    · exact .inl rfl
  · exact .inl rfl

/-! ### Runs of a decode -/

/-- A run of a decode is a run. -/
theorem run_of_whileBusy {n : Nat} {s t : State} (h : whileBusy n s t) : run n s = .next t := by
  induction n generalizing s with
  | zero => cases h; rfl
  | succ n ih =>
    obtain ⟨_, u, hu, h⟩ := h
    simp [run, hu, ih h]

theorem run_of_decodeReaches {n : Nat} {s t : State} (h : s.decodeReaches n t) : run (n + 1) s = .next t := by
  obtain ⟨u, hu, h⟩ := h
  simp [run, hu, run_of_whileBusy h]

/-- What every step from a BUSY state keeps holds at the end of a run of a decode. -/
theorem whileBusy_keeps {P : State → Prop} {n : Nat} {s t : State}
    (keep : ∀ u v, P u → u.status = .busy → step u = .next v → P v) (hs : P s) (h : whileBusy n s t) : P t := by
  induction n generalizing s with
  | zero => cases h; exact hs
  | succ n ih =>
    obtain ⟨hb, u, hu, h⟩ := h
    exact ih (keep s u hs hb hu) h

theorem whileBusy_append {n k : Nat} {s t u : State} (h : whileBusy n s t) (h' : whileBusy k t u) :
    whileBusy (n + k) s u := by
  induction n generalizing s with
  | zero => cases h; simpa using h'
  | succ n ih =>
    obtain ⟨hb, v, hv, h⟩ := h
    rw [Nat.succ_add]
    exact ⟨hb, v, hv, ih h⟩

/-- Two runs of a decode from one state are parts of one: the shorter ends on the way of the longer. -/
theorem whileBusy_split {n k : Nat} {s t : State} (h : whileBusy (n + k) s t) :
    ∃ u, whileBusy n s u ∧ whileBusy k u t := by
  induction n generalizing s with
  | zero => exact ⟨s, rfl, by simpa using h⟩
  | succ n ih =>
    rw [Nat.succ_add] at h
    obtain ⟨hb, v, hv, h⟩ := h
    obtain ⟨u, h1, h2⟩ := ih h
    exact ⟨u, ⟨hb, v, hv, h1⟩, h2⟩

/-- The invariant says nothing of the events to come. -/
theorem Inv.withPending {s : State} (h : Inv s) (events : List Event) : Inv { s with pending := events } := by
  obtain ⟨⟩ := h
  constructor <;> assumption

/-! ### The answers of a step -/

/-- The answers of a step, by what was fetched. -/
theorem step_cases {s t : State} (h : step s = .next t) :
    (∃ i u, s.fetch = .instr i u ∧ exec i u = .next t)
    ∨ (∃ u, s.fetch = .outOfData u ∧ t = State.abort .outOfData u)
    ∨ (∃ u, s.fetch = .work u ∧ u.engineWork = .next t)
    ∨ (∃ a u, s.fetch = .access a u ∧ u.hostAccess a = .next t)
    ∨ (∃ u, s.fetch = .reset u ∧ t = u.resetInput)
    ∨ s.fetch = .wait t := by
  unfold step at h
  cases hf : s.fetch with
  | instr i u => rw [hf] at h; exact .inl ⟨i, u, rfl, h⟩
  | outOfData u => rw [hf] at h; cases h; exact .inr (.inl ⟨u, rfl, rfl⟩)
  | work u => rw [hf] at h; exact .inr (.inr (.inl ⟨u, rfl, h⟩))
  | access a u => rw [hf] at h; exact .inr (.inr (.inr (.inl ⟨a, u, rfl, h⟩)))
  | reset u => rw [hf] at h; cases h; exact .inr (.inr (.inr (.inr (.inl ⟨u, rfl, rfl⟩))))
  | wait u => rw [hf] at h; cases h; exact .inr (.inr (.inr (.inr (.inr rfl))))

end Sys2Proof.Machine
end

