-- ==== Sys2Proof/Tests/Slice0.lean ====
section
/-! SUPPORT. Tests: checks of well-formedness, decoding of words written out from the encoding table, single meanings and
operations against the spec's own examples (95_test_vectors.md), and a witness for every statement with hypotheses. -/

namespace Sys2Proof.Tests

open Sys2Proof Sys2Proof.Machine

/-! ### Helpers -/

/-- Bits written as digits, in stream order. -/
def b (l : List Nat) : List Bool := l.map (· == 1)

/-- The answer is a next state with the property. -/
def answers (r : Result) (p : State → Bool) : Bool :=
  match r with
  | .next t => p t
  | _ => false

theorem of_answers {r : Result} {p : State → Bool} (h : answers r p = true) : ∃ t, r = .next t ∧ p t = true := by
  cases r with
  | next t => exact ⟨t, rfl, h⟩
  | fault _ => cases h
  | refused _ => cases h

/-- `n` steps, each from a BUSY state, lead to a state with the property. -/
def reaches : Nat → State → (State → Bool) → Bool
  | 0, s, p => p s
  | n + 1, s, p => s.status == .busy && answers (step s) fun t => reaches n t p

theorem of_reaches {n : Nat} {s : State} {p : State → Bool} (h : reaches n s p = true) :
    ∃ t, whileBusy n s t ∧ p t = true := by
  induction n generalizing s with
  | zero => exact ⟨s, rfl, h⟩
  | succ n ih =>
    simp only [reaches, Bool.and_eq_true, beq_iff_eq] at h
    obtain ⟨u, hu, h'⟩ := of_answers h.2
    obtain ⟨t, ht, hp⟩ := ih h'
    exact ⟨t, ⟨h.1, u, hu, ht⟩, hp⟩

theorem of_decodeReaches {n : Nat} {s : State} {p : State → Bool}
    (h : answers (step s) (fun u => reaches n u p) = true) : ∃ t, s.decodeReaches n t ∧ p t = true := by
  obtain ⟨u, hu, h⟩ := of_answers h
  obtain ⟨t, ht, hp⟩ := of_reaches h
  exact ⟨t, ⟨u, hu, ht⟩, hp⟩

/-- A decode in progress at a stage, with the stream given. -/
def at_ (stage : Stage) (inMem : Memory := []) (len : Word := 0) : State :=
  { State.reset with status := .busy, stage := stage, inMem := inMem, inLen := len }

/-- A width-1 plane being filled, `cnt` units produced. -/
def filling (m : Bool) (cnt : BitVec 13) : State :=
  { at_ (.planeA .body) with width1 := 1, width2 := 1, m := m, cnt := cnt }

/-- An idle engine whose host issues START next, with every reserved bit set, and goes on with other events. -/
def starting (inMem : Memory) (len : Word) (rest : List Event := []) : State :=
  { State.reset with inMem := inMem, inLen := len, pending := .access (.regWrite 4 0 0xFFFFFFFF) :: rest }

/-- A host that meddles with a decode and polls STATUS (R140). -/
def meddling : List Event :=
  [.access (.regRead 4 4), .engine, .access (.inWrite 1 0 0xFF), .access (.regWrite 4 8 9), .access (.regWrite 4 0 1)]

/-- An engine in some run state whose host performs an access next. -/
def hosting (status : RunState) (a : Access) : State :=
  { State.reset with
    status := status
    stage := if status = .busy then .header .width1 else .idle
    pending := [.access a] }

/-! ### Well-formedness: each check refuses an ill-formed access -/

theorem test_wf_register_access : (Access.regRead 4 0x1C).wf = true := by decide
theorem test_wf_refuses_narrow_register : (Access.regRead 1 0).wf = false := by decide
theorem test_wf_refuses_misaligned_register : (Access.regWrite 4 2 1).wf = false := by decide
theorem test_wf_refuses_register_outside : (Access.regRead 4 0x20).wf = false := by decide
theorem test_wf_refuses_wide_in : (Access.inRead 4 0).wf = false := by decide
theorem test_wf_refuses_in_outside : (Access.inWrite 1 Config.inMemBytes 0).wf = false := by
  simp [Access.wf, inAccessOk]
theorem test_wf_refuses_wide_out : (Access.outWrite 2 0 0).wf = false := by decide
theorem test_wf_refuses_out_outside : (Access.outRead 1 3600).wf = false := by decide
theorem test_wf_out_last : (Access.outRead 1 3599).wf = true := by decide

/-! ### Decoding: every constructor, from its row of the encoding table (R57, R62, R64) -/

theorem test_decode_hdrWidth1 :
    decode .width1 (b [0, 1, 1, 0] ++ [true]) = .code (.hdrWidth1 6) [true] := by decide
theorem test_decode_hdrWidth2 :
    decode .width2 (b [1, 0, 0, 0] ++ [true]) = .code (.hdrWidth2 8) [true] := by decide
theorem test_decode_hdrOrder :
    decode .order (b [1] ++ [true]) = .code (.hdrOrder true) [true] := by decide
theorem test_decode_pmodeRun :
    decode .planeStart (b [0] ++ [true]) = .code .pmodeRun [true] := by decide
theorem test_decode_pmodeLit :
    decode .planeStart (b [1] ++ [true]) = .code .pmodeLit [true] := by decide
theorem test_decode_litEnd :
    decode .literal (b [0, 0] ++ [true]) = .code .litEnd [true] := by decide
theorem test_decode_lit1 :
    decode .literal (b [0, 1] ++ [true]) = .code .lit1 [true] := by decide
theorem test_decode_lit2 :
    decode .literal (b [1, 0] ++ [true]) = .code .lit2 [true] := by decide
theorem test_decode_lit3 :
    decode .literal (b [1, 1] ++ [true]) = .code .lit3 [true] := by decide
theorem test_decode_runK0 :
    decode .run (b [0, 1] ++ [true]) = .code (.runK0 1) [true] := by decide
theorem test_decode_runK1 :
    decode .run (b [1, 0, 1, 0] ++ [true]) = .code (.runK1 2) [true] := by decide
theorem test_decode_runK2 :
    decode .run (b [1, 1, 0, 1, 0, 1] ++ [true]) = .code (.runK2 5) [true] := by decide
theorem test_decode_runK3 :
    decode .run (b [1, 1, 1, 0, 1, 0, 0, 0] ++ [true]) = .code (.runK3 8) [true] := by decide
theorem test_decode_runK4 :
    decode .run (b [1, 1, 1, 1, 0, 0, 0, 0, 0, 1] ++ [true]) = .code (.runK4 1) [true] := by decide
theorem test_decode_runK5 :
    decode .run (b [1, 1, 1, 1, 1, 0, 1, 0, 0, 1, 0, 1] ++ [true]) = .code (.runK5 37) [true] := by decide
theorem test_decode_runK6 :
    decode .run (b [1, 1, 1, 1, 1, 1, 0, 1, 0, 0, 0, 0, 0, 1] ++ [true]) = .code (.runK6 65) [true] := by decide
theorem test_decode_runK7 :
    decode .run (b [1, 1, 1, 1, 1, 1, 1, 0, 1, 1, 1, 1, 1, 1, 1, 0] ++ [true]) = .code (.runK7 254) [true] := by decide
theorem test_decode_runK8 :
    decode .run (b [1, 1, 1, 1, 1, 1, 1, 1, 0, 1, 0, 0, 1, 0, 0, 0, 0, 1] ++ [true]) = .code (.runK8 289) [true] := by decide
theorem test_decode_runK9 :
    decode .run (b [1, 1, 1, 1, 1, 1, 1, 1, 1, 0, 0, 0, 1, 0, 0, 0, 0, 0, 0, 1] ++ [true]) = .code (.runK9 129) [true] := by decide
theorem test_decode_runK10 :
    decode .run (b [1, 1, 1, 1, 1, 1, 1, 1, 1, 1, 0, 1, 0, 0, 0, 0, 0, 0, 0, 0, 0, 1] ++ [true]) = .code (.runK10 1025) [true] := by decide
theorem test_decode_runK11 :
    decode .run (b [1, 1, 1, 1, 1, 1, 1, 1, 1, 1, 1, 0, 1, 1, 0, 0, 0, 0, 1, 0, 0, 0, 0, 1] ++ [true]) = .code (.runK11 3105) [true] := by decide
theorem test_decode_runK12 :
    decode .run (b [1, 1, 1, 1, 1, 1, 1, 1, 1, 1, 1, 1, 0, 1, 0, 0, 0, 0, 0, 0, 0, 0, 0, 0, 1, 0] ++ [true]) = .code (.runK12 4098) [true] := by decide
theorem test_decode_runK13 :
    decode .run (b [1, 1, 1, 1, 1, 1, 1, 1, 1, 1, 1, 1, 1, 0, 1, 0, 0, 0, 0, 0, 0, 0, 0, 0, 0, 0, 0, 1] ++ [true]) = .code (.runK13 8193) [true] := by decide
theorem test_decode_runK14 :
    decode .run (b [1, 1, 1, 1, 1, 1, 1, 1, 1, 1, 1, 1, 1, 1, 0, 1, 1, 1, 1, 1, 1, 1, 1, 1, 1, 1, 1, 1, 1, 1] ++ [true]) = .code (.runK14 32767) [true] := by decide
theorem test_decode_runK15 :
    decode .run (b [1, 1, 1, 1, 1, 1, 1, 1, 1, 1, 1, 1, 1, 1, 1, 0, 1, 0, 0, 0, 0, 0, 0, 0, 0, 0, 0, 0, 0, 0, 0, 1] ++ [true]) = .code (.runK15 32769) [true] := by decide
theorem test_decode_runInvalid :
    decode .run (b [1, 1, 1, 1, 1, 1, 1, 1, 1, 1, 1, 1, 1, 1, 1, 1] ++ [true]) = .code .runInvalid [true] := by decide
theorem test_decode_mode0 :
    decode .mode (b [0] ++ [true]) = .code .mode0 [true] := by decide
theorem test_decode_mode1 :
    decode .mode (b [1, 0] ++ [true]) = .code .mode1 [true] := by decide
theorem test_decode_mode2 :
    decode .mode (b [1, 1] ++ [true]) = .code .mode2 [true] := by decide
theorem test_decode_cmdStart :
    decode .ctrlWrite (b [1, 0, 0, 0, 0, 0, 0, 0, 0, 0, 0, 0, 0, 0, 0, 0, 0, 0, 0, 0, 0, 0, 0, 0, 0, 0, 0, 0, 0, 0, 1, 1] ++ [true]) = .code (.cmdStart 0x40000001) [true] := by decide

/-- A code word cut short is rejected by name (R65). -/
theorem test_decode_short_run : decode .run (b [1, 1, 0, 1]) = .reject .endOfStream := by decide
theorem test_decode_short_mode : decode .mode (b [1]) = .reject .endOfStream := by decide
/-- A CTRL write with bit 0 clear is no command (R28, vector H8). -/
theorem test_decode_no_command : decode .ctrlWrite (bitsOf 2#32) = .reject .noCommand := by decide

/-! ### The stream notation (programs P1 and E2B, vectors R9, R19) -/

theorem test_assemble_P1 :
    assemble (headerOf 1 false ++ [.code .pmodeLit, .code .lit1, .code .lit2, .code .lit3, .code .litEnd, .code (runOf 29),
      .code .mode0, .code .pmodeRun, .code (runOf 32)]) = [0x11, 0x5B, 0x3B, 0x8F, 0x04] := by decide
theorem test_assemble_E2B :
    assemble (headerOf 1 false ++ [.code .pmodeRun, .code (runOf 2), .code .lit1, .code .litEnd, .code .runInvalid])
      = [0x11, 0x14, 0xFF, 0xFF] := by decide
theorem test_run_R9 : encode (runOf 31) = b [1, 1, 1, 1, 0, 0, 0, 0, 0, 0] := by decide
theorem test_run_R19 : runOf 131070 = .runK15 0xFFFF := by decide
/-- The value of a pixel: low bit from the even byte, high bit from the odd byte (R105). -/
theorem test_pixel : pixelOf 0x80 0x00 7 = 1 ∧ pixelOf 0x00 0x80 7 = 2 := by decide

/-! ### Table words, and the first step after they are placed -/

theorem test_table_runK3 : decodeTableWord 8 0xE5 = some (.runK3 5) := by decide
theorem test_table_runK7 : decodeTableWord 16 0xFE12 = some (.runK7 0x12) := by decide
theorem test_table_runK11 : decodeTableWord 24 0xFFE123 = some (.runK11 0x123) := by decide
theorem test_table_runK15 : decodeTableWord 32 0xFFFE1234 = some (.runK15 0x1234) := by decide
theorem test_table_runInvalid : decodeTableWord 16 0xFFFF = some .runInvalid := by decide
theorem test_table_cmdStart : decodeTableWord 32 0xFFFFFFFF = some (.cmdStart 0x7FFFFFFF) := by decide
theorem test_first_step_runK3 :
    answers (step (State.reset.withFetchWord 8 0xE5)) (fun t => t.n == 20 && t.cnt == 20 && t.bitIndex == 7) = true := by
  decide
theorem test_first_step_runInvalid :
    answers (step (State.reset.withFetchWord 16 0xFFFF)) (fun t => t.err == .invalidRunLength && t.curByte == 2) = true := by
  decide
theorem test_first_step_cmdStart :
    answers (step (State.reset.withFetchWord 32 1)) (fun t => t.status == .busy && t.pending == []) = true := by
  decide

/-! ### The bit reader (vectors B1, B3, B6 to B10) -/

theorem test_readInt_whole_byte :
    ((at_ .idle [(0, 0xA5)] 1).readInt 8).1.toOption = some 0xA5 := by decide
theorem test_readInt_crosses_bytes :
    ({ at_ .idle [(0, 0x01), (1, 0x80)] 2 with bitIndex := 0 }.readInt 2).1.toOption = some 3 := by decide
theorem test_readUnary_three : ((at_ .idle [(0, 0xE0)] 1).readUnary).2.bitIndex = 3 := by decide
theorem test_readUnary_invalid_at_the_end :
    ((at_ .idle [(0, 0xFF), (1, 0xFF)] 2).readUnary).1.toOption = none
    ∧ ((at_ .idle [(0, 0xFF), (1, 0xFF)] 2).readUnary).2.byteIndex = 2 := by decide
theorem test_readUnary_fifteen : ((at_ .idle [(0, 0xFF), (1, 0xFE)] 2).readUnary).1.toOption = some 15 := by decide

/-! ### Flags: the Gray steps (vectors G2, G3, G7, G12) -/

theorem test_gray_G2 : grayByte false 0x12 = (0x1C, false) := by decide
theorem test_gray_G3 : grayByte false 0x80 = (0xFF, true) := by decide
theorem test_gray_G7 : grayByte true 0x12 = (0xE3, true) := by decide
theorem test_gray_G7e : grayByte false 0x47 = (0x7A, false) := by decide

/-! ### Meanings, one step each -/

theorem test_exec_width1 : answers (exec (.hdrWidth1 5) (at_ (.header .width1))) (fun t => t.width1 == 5) = true := by decide
theorem test_exec_width2_mismatch :
    answers (exec (.hdrWidth2 6) { at_ (.header .width2) with width1 := 5 })
      (fun t => t.statusWord == 0x7 && t.hdrWord == 0x065) = true := by decide
theorem test_exec_order : answers (exec (.hdrOrder true) (at_ (.header .order))) (fun t => t.hdrWord == 0x100 && t.slot) = true := by decide
theorem test_exec_pmode_second_plane :
    answers (exec .pmodeLit (at_ (.planeB .start))) (fun t => t.m && t.stage == .planeB .body) = true := by decide
theorem test_exec_pmode_run :
    answers (exec .pmodeRun { at_ (.planeA .start) with m := true }) (fun t => !t.m && t.cnt == 0) = true := by decide
theorem test_exec_literal_fills_plane :
    answers (exec .lit3 (filling true 31)) (fun t => t.cnt == 32 && !t.m && t.rawUnit false 31 == 3) = true := by decide
theorem test_exec_lit1 :
    answers (exec .lit1 (filling true 0)) (fun t => t.cnt == 1 && t.m && t.rawUnit false 0 == 1) = true := by decide
theorem test_exec_lit2_slot1 :
    answers (exec .lit2 { filling true 4 with slot := true }) (fun t => t.raw1 == [(4, 2)] && t.raw0 == []) = true := by decide
theorem test_exec_litEnd : answers (exec .litEnd (filling true 3)) (fun t => !t.m && t.cnt == 3) = true := by decide
theorem test_exec_runK0 :
    answers (exec (.runK0 1) (filling false 0)) (fun t => t.n == 2 && t.k == 0 && t.cnt == 2 && t.m) = true := by decide
theorem test_exec_runK1 :
    answers (exec (.runK1 2) (filling false 30)) (fun t => t.n == 5 && t.k == 1 && t.cnt == 32 && t.m) = true := by decide
theorem test_exec_runK2 :
    answers (exec (.runK2 5) (filling false 20)) (fun t => t.n == 12 && t.k == 2 && t.cnt == 32 && t.m) = true := by decide
theorem test_exec_runK3 :
    answers (exec (.runK3 8) (filling false 0)) (fun t => t.n == 23 && t.k == 3 && t.cnt == 23 && t.m) = true := by decide
theorem test_exec_runK4 :
    answers (exec (.runK4 1) (filling false 30)) (fun t => t.n == 32 && t.k == 4 && t.cnt == 32 && t.m) = true := by decide
theorem test_exec_runK5 :
    answers (exec (.runK5 37) (filling false 20)) (fun t => t.n == 100 && t.k == 5 && t.cnt == 32 && t.m) = true := by decide
theorem test_exec_runK6 :
    answers (exec (.runK6 65) (filling false 0)) (fun t => t.n == 192 && t.k == 6 && t.cnt == 32 && t.m) = true := by decide
theorem test_exec_runK7 :
    answers (exec (.runK7 254) (filling false 30)) (fun t => t.n == 509 && t.k == 7 && t.cnt == 32 && t.m) = true := by decide
theorem test_exec_runK8 :
    answers (exec (.runK8 289) (filling false 20)) (fun t => t.n == 800 && t.k == 8 && t.cnt == 32 && t.m) = true := by decide
theorem test_exec_runK9 :
    answers (exec (.runK9 129) (filling false 0)) (fun t => t.n == 1152 && t.k == 9 && t.cnt == 32 && t.m) = true := by decide
theorem test_exec_runK10 :
    answers (exec (.runK10 1025) (filling false 30)) (fun t => t.n == 3072 && t.k == 10 && t.cnt == 32 && t.m) = true := by decide
theorem test_exec_runK11 :
    answers (exec (.runK11 3105) (filling false 20)) (fun t => t.n == 7200 && t.k == 11 && t.cnt == 32 && t.m) = true := by decide
theorem test_exec_runK12 :
    answers (exec (.runK12 4098) (filling false 0)) (fun t => t.n == 12289 && t.k == 12 && t.cnt == 32 && t.m) = true := by decide
theorem test_exec_runK13 :
    answers (exec (.runK13 8193) (filling false 30)) (fun t => t.n == 24576 && t.k == 13 && t.cnt == 32 && t.m) = true := by decide
theorem test_exec_runK14 :
    answers (exec (.runK14 32767) (filling false 20)) (fun t => t.n == 65534 && t.k == 14 && t.cnt == 32 && t.m) = true := by decide
theorem test_exec_runK15 :
    answers (exec (.runK15 32769) (filling false 0)) (fun t => t.n == 98304 && t.k == 15 && t.cnt == 32 && t.m) = true := by decide
theorem test_exec_runInvalid :
    answers (exec .runInvalid (filling false 3)) (fun t => t.statusWord == 0xB && t.raw0 == []) = true := by decide
theorem test_exec_mode0 : answers (exec .mode0 { at_ .mode with order := true }) (fun t => t.mode == 0 && !t.slot) = true := by decide
theorem test_exec_mode1 : answers (exec .mode1 (at_ .mode)) (fun t => t.hdrWord == 0x200 && t.slot) = true := by decide
theorem test_exec_mode2 : answers (exec .mode2 (at_ .mode)) (fun t => t.hdrWord == 0x400) = true := by decide
theorem test_exec_start_busy : answers (exec (.cmdStart 0) (filling true 3)) (fun t => t == filling true 3) = true := by decide
theorem test_exec_start_after_error :
    answers (exec (.cmdStart 0) { State.reset with status := .error, err := .outOfData, byteIndex := 9, width1 := 3 })
      (fun t => t.statusWord == 1 && t.hdrWord == 0 && t.byteIndex == 0) = true := by decide

/-! ### The stages (vectors D7, M2, T2 and rule R109) -/

/-- Packing (vector D7): unit 8 = 2 and unit 16 = 3 land in byte 0. -/
theorem test_pack_D7 :
    packUnits [0, 2, 3, 0] = [0x2C] ∧ packUnits [1, 2, 3, 0] = [0x6C] := by decide

/-- MODE.1 (vector M2, byte 0): `40` decodes to `7F`, and `30 ^ 7F = 4F`. -/
theorem test_merge_mode1 :
    let s := { at_ .merge with
      width1 := 1
      packed0 := [(0, 0x40), (1, 0), (2, 0), (3, 0), (4, 0), (5, 0), (6, 0), (7, 0)]
      packed1 := [(0, 0x30), (1, 0), (2, 0), (3, 0), (4, 0), (5, 0), (6, 0), (7, 0)] }
    s.mergeMode1.packedByte false 0 = 0x7F ∧ s.mergeMode1.packedByte true 0 = 0x4F := by decide

/-- The tile pairs of widths 2 and 3 (vectors T2, T3). -/
theorem test_tile_partner : tilePartner 2 1 = 2 ∧ tilePartner 3 1 = 3 ∧ tilePartner 3 2 = 6 ∧ tilePartner 3 5 = 7 := by decide

/-- One swap of blocks moves the bytes (R106). -/
theorem test_swap_bytes :
    (({ State.reset with outMem := [(16, 1), (32, 2)] }).swapOut 16 32).outMem = [(16, 2), (32, 1)] := by decide

/-! ### The host's port (vectors H1, H2, H5) -/

theorem test_read_cur_bit :
    answers (step (hosting .idle (.regRead 4 0x18))) (fun t => t.seen == [7]) = true := by decide
theorem test_write_in_len :
    ∃ t, step (hosting .idle (.regWrite 4 8 0xFFFFFFFF)) = .next t
      ∧ t.inLen = BitVec.ofNat 32 (min 4294967295 Config.inMemBytes) := ⟨_, rfl, rfl⟩
theorem test_write_status_ignored :
    answers (step (hosting .done (.regWrite 4 4 2))) (fun t => t.status == .done) = true := by decide
theorem test_refused_wide_out : step (hosting .idle (.outRead 4 0)) = .refused .outAccess := by rfl
theorem test_reset_while_busy :
    answers (step { filling true 3 with pending := [.reset], outMem := [(0, 1)], inMem := [(0, 2)] })
      (fun t => t.statusWord == 0 && t.outMem == [] && t.inMem == [(0, 2)]) = true := by decide

/-! ### Witnesses: a concrete state and operands that meet the hypotheses of each statement -/

theorem witness_DecodeReadsBackEncode : (Instr.runK15 0xFFFF).wf = true := rfl
theorem witness_DecodeAcceptsOnlyEncodings :
    decode .run (b [1, 1, 0, 1, 0, 1, 1]) = .code (.runK2 5) [true] := by decide
theorem witness_LongStreamsAlwaysDecode :
    ParseState.run ≠ .ctrlWrite ∧ 32 ≤ (List.replicate 32 true).length := by decide
theorem witness_EveryRunLengthHasOneCode_first :
    decode .run (b [0, 0]) = .code (.runK0 0) [] ∧ runShape (.runK0 0) = some (0, 1) := by decide
theorem witness_EveryRunLengthHasOneCode_last :
    decode .run (List.replicate 15 true ++ [false] ++ List.replicate 16 true) = .code (.runK15 0xFFFF) []
    ∧ runShape (.runK15 0xFFFF) = some (15, 131070) := by decide
theorem witness_ReadBitTakesOneBit_end : (at_ .idle).inLen.toNat ≤ (at_ .idle).byteIndex.toNat := by decide
theorem witness_ReadBitTakesOneBit_last_bit :
    let s := { at_ .idle [(0, 1)] 1 with bitIndex := 0 }
    s.byteIndex.toNat < s.inLen.toNat ∧ s.bitIndex = 0 := by decide
theorem witness_ReadBitTakesOneBit_first_bit :
    let s := at_ .idle [(0, 1)] 1
    s.byteIndex.toNat < s.inLen.toNat ∧ s.bitIndex ≠ 0 := by decide
theorem witness_CursorCountsBitsConsumed :
    let s := at_ .idle [(0, 1)] 1
    s.byteIndex = 0 ∧ s.bitIndex = 7 ∧ 8 ≤ s.streamBits ∧ 8 = s.streamBits := by decide
theorem witness_ReadIntIsBigEndian : 16 ≤ 16 := by decide
theorem witness_FetchReadsOneCodeWord_code :
    ParseState.width1 ≠ .ctrlWrite
    ∧ decode .width1 ((at_ (.header .width1) [(0, 0x55)] 1).peekBits 40) = .code (.hdrWidth1 5) (b [0, 1, 0, 1]) := by decide
theorem witness_FetchReadsOneCodeWord_reject :
    decode .width1 ((at_ (.header .width1)).peekBits 40) = .reject .endOfStream := by decide
theorem witness_StepRunsTheDecodedCodeWord :
    let s := at_ (.header .width1) [(0, 0x55)] 1
    s.engineNext = true ∧ s.parse = some .width1
    ∧ decode .width1 (s.peekBits window) = .code (.hdrWidth1 5) (b [0, 1, 0, 1]) := by decide
theorem witness_StepRunsTheStartCommand :
    (hosting .done (.regWrite 4 0 0xFFFFFFFF)).pending = [.access (.regWrite 4 0 0xFFFFFFFF)]
    ∧ (0xFFFFFFFF : Word).getLsbD 0 = true := by decide
theorem witness_StreamEndAborts :
    let s := { at_ (.header .order) [(0, 0)] 1 with byteIndex := 1 }
    s.engineNext = true ∧ s.parse = some .order ∧ decode .order (s.peekBits window) = .reject .endOfStream := by decide
theorem witness_StreamEndAborts_cursor :
    ({ at_ (.header .order) [(0, 0)] 1 with byteIndex := 1 }).cursorInStream := .inr (by decide)
theorem witness_HeaderFieldsComplete :
    (at_ (.header .width1)).parse = some .width1
    ∧ (at_ (.header .width2)).parse = some .width2 ∧ 0 = (at_ (.header .width2)).width1
    ∧ (at_ (.header .order)).parse = some .order := by decide
theorem witness_WidthMismatchAborts :
    (at_ (.header .width2)).parse = some .width2 ∧ 15 ≠ (at_ (.header .width2)).width1 := by decide
theorem witness_PmodeOpensThePlane :
    (at_ (.planeA .start)).parse = some .planeStart ∧ (at_ (.planeB .start)).parse = some .planeStart := by decide
theorem witness_LiteralUnitsAppend :
    (filling true 31).parse = some .literal ∧ (filling true 0).parse = some .literal
    ∧ literalValue .lit1 = some 1 ∧ literalValue .lit2 = some 2 ∧ literalValue .lit3 = some 3 := by decide
theorem witness_LiteralEndSwitchesToRun : (filling true 5).parse = some .literal := by decide
theorem witness_RunCodesAppendClampedZeros :
    (filling false 31).parse = some .run
    ∧ runShape (.runK0 0) = some (0, 1) ∧ runShape (.runK15 0xFFFF) = some (15, 131070) := by decide
theorem witness_InvalidRunAborts : (filling false 0).parse = some .run := by decide
theorem witness_ModeCodesComplete :
    (at_ .mode).parse = some .mode
    ∧ modeValue .mode0 = some 0 ∧ modeValue .mode1 = some 1 ∧ modeValue .mode2 = some 2 := by decide
theorem witness_StartCommandStartsADecode : State.reset.status ≠ .busy := by decide
theorem witness_StartIsIgnoredWhileBusy :
    (hosting .busy (.regWrite 4 0 1)).status = .busy
    ∧ (hosting .busy (.regWrite 4 0 1)).pending = [.access (.regWrite 4 0 1)] ∧ (1 : Word).getLsbD 0 = true := by decide
theorem witness_PackedPlaneClosedForm :
    0 < (filling true 0).w ∧ 7 < 8 * (filling true 0).w ∧ 31 < 32 * ((filling true 0).w * (filling true 0).w) := by decide
theorem witness_FullPlaneIsPacked_first :
    (filling true 32).engineNext = true ∧ (filling true 32).status = .busy
    ∧ (filling true 32).stage = .planeA .body ∧ (filling true 32).parse = none := by decide
theorem witness_FullPlaneIsPacked_second :
    let s := at_ (.planeB .body)
    s.engineNext = true ∧ s.status = .busy ∧ s.stage = .planeB .body ∧ s.parse = none := by decide
theorem witness_GrayPlaneIsRunningXor : 7 < 8 * (filling true 0).w ∧ 0 < (filling true 0).w ∧ 7 < 8 := by decide
theorem witness_GrayPlaneFrame : 8 * ((filling true 0).w * (filling true 0).w) ≤ 8 := by decide
/-- The all-zero plane is its own differential code. -/
theorem witness_GrayEncoderInvertsGrayPlane :
    let s := { filling true 0 with packed0 := [(0, 0), (1, 0), (2, 0), (3, 0), (4, 0), (5, 0), (6, 0), (7, 0)] }
    s.w = s.w ∧ ∀ x, x < 8 → s.packedByte false (0 * (8 * s.w) + x) = s.grayEncoded false 0 x := by decide
theorem witness_MergeAppliesTheMode :
    let s := at_ .merge
    s.engineNext = true ∧ s.status = .busy ∧ s.stage = .merge ∧ s.mode ≠ 3
    ∧ { s with mode := 1 }.mode = 1 ∧ { s with mode := 2 }.mode = 2 := by decide
theorem witness_TransposeMovesBlocks :
    let s := { filling true 0 with width1 := 15 }
    224 < s.w * s.w ∧ 16 * (s.w * s.w) ≤ 3600 := by decide
theorem witness_OutputStageClosedForm :
    let s := { at_ .output with width1 := 1 }
    s.engineNext = true ∧ s.status = .busy ∧ s.stage = .output ∧ 0 < s.w * s.w := by decide
theorem witness_FinishRecordsTheResult :
    let s := at_ .finish
    s.engineNext = true ∧ s.status = .busy ∧ s.stage = .finish := by decide

theorem starting_aboutToStart (inMem : Memory) (len : Word) (rest : List Event) :
    (starting inMem len rest).aboutToStart :=
  ⟨by simp [starting, State.reset], _, rest, rfl, by decide⟩

theorem starting_hostInInterface (inMem : Memory) (len : Word) : (starting inMem len meddling).hostInInterface := by
  intro a h
  simp [starting, meddling] at h
  rcases h with rfl | rfl | rfl | rfl | rfl <;> simp [Access.wf, regAccessOk, inAccessOk, Config.inMemBytes]

theorem starting_without_reset (inMem : Memory) (len : Word) : .reset ∉ (starting inMem len meddling).pending := by
  simp [starting, meddling]

theorem witness_AssembledStreams_runs : 1 ≤ 131070 ∧ 131070 ≤ 131070 := by decide
theorem witness_HostSequenceStartsTheDecode :
    State.reset.status ≠ .busy ∧ [(0x56 : Byte)].length ≤ Config.inMemBytes
    ∧ ({ State.reset with pending := hostSequence 1 0 [0x56] ++ meddling } : State).pending =
        hostSequence [(0x56 : Byte)].length 0 [0x56] ++ meddling :=
  ⟨by decide, Nat.succ_le_succ (Nat.zero_le _), rfl⟩

/-- While BUSY and before OUTPUT: a code word, and a host write. -/
theorem witness_FailedDecodesLeaveOutAlone_step :
    let s := at_ (.header .width1) [(0, 0x55)] 1
    let h := { s with pending := [.access (.inWrite 1 0 9)] }
    s.status = .busy ∧ s.stage ≠ .output ∧ s.pending.head? ≠ some .reset ∧ answers (step s) (fun _ => true) = true
    ∧ h.status = .busy ∧ h.stage ≠ .output ∧ h.pending.head? ≠ some .reset := by decide
/-- Program E1: `56` ends in WidthMismatch, also under a host that meddles and polls. -/
theorem witness_FailedDecodesLeaveOutAlone :
    (starting [(0, 0x56)] 1 meddling).aboutToStart
    ∧ ∃ t, (starting [(0, 0x56)] 1 meddling).decodeReaches 6 t ∧ (t.status == .error) = true :=
  ⟨starting_aboutToStart _ _ _, of_decodeReaches (by decide)⟩
/-- Vector Q8: a stream of width 0 ends in DONE, also under a host that polls. -/
theorem witness_SuccessfulDecodesCountTheirOutput :
    (starting [(0, 0), (1, 0)] 2 [.access (.regRead 4 4), .engine]).aboutToStart
    ∧ ∃ t, (starting [(0, 0), (1, 0)] 2 [.access (.regRead 4 4), .engine]).decodeReaches 12 t
        ∧ (t.status == .done) = true :=
  ⟨starting_aboutToStart _ _ _, of_decodeReaches (by decide)⟩
/-- Two machines that differ outside the stream, one with a silent host and one with a host that meddles, around a decode
of the same byte. -/
theorem witness_DecodeDependsOnTheStreamAlone :
    (∃ u, (starting [(0, 0x56)] 1).decodeReaches 2 u ∧ (u.status == .error) = true)
    ∧ ∃ v, { starting [(0, 0x56), (1, 9)] 1 meddling with outMem := [(5, 5)], carry := true }.decodeReaches 6 v
        ∧ (v.status == .error) = true :=
  ⟨of_decodeReaches (by decide), of_decodeReaches (by decide)⟩
/-- The same host events, from two machines that differ outside the stream. -/
theorem witness_DecodeDependsOnTheStreamAlone_same_events :
    (starting [(0, 0x56)] 1 meddling).pending.tail = (starting [(0, 0x56), (1, 9)] 1 meddling).pending.tail
    ∧ (∃ u, (starting [(0, 0x56)] 1 meddling).decodeReaches 2 u ∧ (u.status == .busy) = true)
    ∧ ∃ v, run 3 (starting [(0, 0x56), (1, 9)] 1 meddling) = .next v ∧ (v.status == .busy) = true :=
  ⟨rfl, of_decodeReaches (by decide), of_answers (by decide)⟩
theorem witness_DifferingWidthsEndTheDecode :
    let s := starting [(0, 0x56)] 1 meddling
    s.aboutToStart ∧ s.hostInInterface ∧ .reset ∉ s.pending
    ∧ 1 ≤ s.inLen.toNat ∧ (s.inByte 0).extractLsb' 4 4 ≠ (s.inByte 0).extractLsb' 0 4 :=
  ⟨starting_aboutToStart _ _ _, starting_hostInInterface _ _, starting_without_reset _ _, by decide, by decide⟩
theorem witness_WidthZeroDecodesToNothing :
    let s := starting [(0, 0), (1, 0x70)] 2 meddling
    s.aboutToStart ∧ s.hostInInterface ∧ .reset ∉ s.pending ∧ 2 ≤ s.inLen.toNat ∧ s.inByte 0 = 0 :=
  ⟨starting_aboutToStart _ _ _, starting_hostInInterface _ _, starting_without_reset _ _, by decide, by decide⟩
theorem witness_WidthZeroDecodesToNothing_short :
    let s := starting [(0, 0)] 1 meddling
    s.aboutToStart ∧ s.hostInInterface ∧ .reset ∉ s.pending ∧ s.inLen.toNat = 1 ∧ s.inByte 0 = 0 :=
  ⟨starting_aboutToStart _ _ _, starting_hostInInterface _ _, starting_without_reset _ _, by decide, by decide⟩

/-- A decode that has just started on an empty stream meets the invariant. -/
theorem started_meets_Inv : Inv (at_ (.header .width1)) where
  inMem_wf := rfl
  outMem_wf := rfl
  raw_wf := fun sl => by cases sl <;> rfl
  packed_wf := fun sl => by cases sl <;> rfl
  inMem_range := fun c hc => by cases hc
  outMem_range := fun c hc => by cases hc
  inLen_le := Nat.zero_le _
  err_iff := by decide
  busy_iff := by decide
  mode_legal := by decide
  cursor_le := fun _ => .inr (by decide)
  cursor_shown := fun h => absurd rfl h
  outCount_done := fun h => by cases h
  outCount_zero := fun _ => rfl
  widths_agree := fun _ h _ => absurd rfl h
  slot_first := fun _ h => by cases h
  slot_second := fun _ h => by cases h
  cnt_le := fun h => by rcases h with h | h <;> cases h
  raw_written := fun h => by rcases h with h | h <;> cases h
  first_packed := fun h => by
    rcases h with h | ⟨_, h⟩ | h | h <;> cases h
  second_packed := fun h => by rcases h with h | h <;> cases h

theorem witness_EveryDecodeEnds :
    Inv (at_ (.header .width1)) ∧ (at_ (.header .width1)).status = .busy ∧ (at_ (.header .width1)).hostInInterface :=
  ⟨started_meets_Inv, rfl, fun _ h => by cases h⟩
/-- With host events left, a reset among them. -/
theorem witness_EveryDecodeEnds_events :
    let s := { at_ (.header .width1) with pending := [.access (.regRead 4 4), .engine, .reset] }
    Inv s ∧ s.status = .busy ∧ s.hostInInterface :=
  ⟨started_meets_Inv.withPending _, rfl, fun a h => by
    simp at h
    subst h
    decide⟩
theorem witness_StepKeepsTheInvariant :
    Inv (at_ (.header .width1)) ∧ ∃ t, step (at_ (.header .width1)) = .next t :=
  ⟨started_meets_Inv, _, rfl⟩
theorem witness_OnlyAccessesOutsideTheInterfaceStop : Inv (at_ (.header .width1)) := started_meets_Inv
/-- The refused branch: a register read of one byte. -/
theorem witness_OnlyAccessesOutsideTheInterfaceStop_refused :
    let s := { at_ (.header .width1) with pending := [.access (.regRead 1 0)] }
    Inv s ∧ s.pending = [.access (.regRead 1 0)] ∧ (Access.regRead 1 0).wf = false
    ∧ step s = .refused (refusalOf (.regRead 1 0)) :=
  ⟨started_meets_Inv.withPending _, rfl, by decide, rfl⟩
theorem witness_CursorOnlyAdvances :
    let s := at_ (.header .width1) [(0, 0x55)] 1
    s.status = .busy ∧ s.pending.head? ≠ some .reset ∧ answers (step s) (fun t => t.bitPos == 4) = true := by decide
theorem witness_CursorOnlyAdvances_cursor :
    (at_ (.header .width1) [(0, 0x55)] 1).cursorInStream := .inl (by decide)
theorem witness_BusyAccessesChangeNothing :
    let s := hosting .busy (.regWrite 4 0 1)
    s.status = .busy ∧ s.pending = [.access (.regWrite 4 0 1)] ∧ (Access.regWrite 4 0 1).wf = true := by decide
theorem witness_ReadsHaveNoSideEffect :
    (hosting .busy (.outRead 1 3599)).pending = [.access (.outRead 1 3599)]
    ∧ (Access.outRead 1 3599).wf = true ∧ isRead (.outRead 1 3599) = true := by decide
theorem witness_AlwaysReadableRegisters :
    (hosting .busy (.regRead 4 0x00)).pending = [.access (.regRead 4 0x00)]
    ∧ (hosting .busy (.regRead 4 0x04)).pending = [.access (.regRead 4 0x04)]
    ∧ (hosting .busy (.regRead 4 0x08)).pending = [.access (.regRead 4 0x08)]
    ∧ (hosting .busy (.regRead 4 0x1C)).pending = [.access (.regRead 4 0x1C)] := by decide
/-- Each STATE, with the number of R29 in the word read. -/
theorem witness_AlwaysReadableRegisters_state :
    (hosting .idle (.regRead 4 4)).status = .idle ∧ answers (step (hosting .idle (.regRead 4 4))) (fun t => t.seen == [0]) = true
    ∧ (hosting .busy (.regRead 4 4)).status = .busy ∧ answers (step (hosting .busy (.regRead 4 4))) (fun t => t.seen == [1]) = true
    ∧ (hosting .done (.regRead 4 4)).status = .done ∧ answers (step (hosting .done (.regRead 4 4))) (fun t => t.seen == [2]) = true
    ∧ (hosting .error (.regRead 4 4)).status = .error ∧ answers (step (hosting .error (.regRead 4 4))) (fun t => t.seen == [3]) = true := by
  decide
/-- Each ERR, with the number of R124 in the word read. -/
theorem witness_AlwaysReadableRegisters_err :
    let s := fun e => { hosting .error (.regRead 4 4) with err := e }
    (s .none).err = .none ∧ answers (step (s .none)) (fun t => t.seen == [0x3]) = true
    ∧ (s .widthMismatch).err = .widthMismatch ∧ answers (step (s .widthMismatch)) (fun t => t.seen == [0x7]) = true
    ∧ (s .invalidRunLength).err = .invalidRunLength ∧ answers (step (s .invalidRunLength)) (fun t => t.seen == [0xB]) = true
    ∧ (s .outOfData).err = .outOfData ∧ answers (step (s .outOfData)) (fun t => t.seen == [0xF]) = true := by
  decide
theorem witness_ResultRegistersReadWhenNotBusy :
    (hosting .done (.regRead 4 0x0C)).pending = [.access (.regRead 4 0x0C)]
    ∧ (hosting .done (.regRead 4 0x10)).pending = [.access (.regRead 4 0x10)]
    ∧ (hosting .done (.regRead 4 0x14)).pending = [.access (.regRead 4 0x14)]
    ∧ (hosting .done (.regRead 4 0x18)).pending = [.access (.regRead 4 0x18)]
    ∧ (hosting .done (.regRead 4 0x0C)).status ≠ .busy := by decide
theorem witness_BusyResultReadsAreUnspecified :
    (hosting .busy (.regRead 4 0x10)).status = .busy
    ∧ (hosting .busy (.regRead 4 0x10)).pending = [.access (.regRead 4 0x10)]
    ∧ (hosting .busy (.outRead 1 3599)).pending = [.access (.outRead 1 3599)] ∧ 3599 < 3600 := by decide
theorem witness_RegisterWritesOutsideBusy :
    (hosting .idle (.regWrite 4 8 0xFFFFFFFF)).status ≠ .busy
    ∧ (hosting .idle (.regWrite 4 8 0xFFFFFFFF)).pending = [.access (.regWrite 4 8 0xFFFFFFFF)]
    ∧ (hosting .idle (.regWrite 4 0 2)).pending = [.access (.regWrite 4 0 2)] ∧ (2 : Word).getLsbD 0 = false
    ∧ (hosting .idle (.regWrite 4 0x1C 1)).pending = [.access (.regWrite 4 0x1C 1)] := by decide
theorem witness_InputMemoryAccesses :
    0 < Config.inMemBytes
    ∧ (hosting .idle (.inWrite 1 0 7)).status ≠ .busy
    ∧ (hosting .idle (.inWrite 1 0 7)).pending = [.access (.inWrite 1 0 7)]
    ∧ (hosting .busy (.inRead 1 0)).pending = [.access (.inRead 1 0)] :=
  ⟨Nat.succ_pos _, by decide, rfl, rfl⟩
theorem witness_OutputMemoryAccesses :
    3599 < 3600 ∧ (hosting .done (.outRead 1 3599)).status ≠ .busy
    ∧ (hosting .done (.outRead 1 3599)).pending = [.access (.outRead 1 3599)]
    ∧ (hosting .busy (.outWrite 1 3599 1)).pending = [.access (.outWrite 1 3599 1)] := by decide
theorem witness_AccessesOutsideTheInterfaceAreRefused :
    (hosting .idle (.regRead 4 32)).pending = [.access (.regRead 4 32)]
    ∧ (hosting .idle (.regWrite 4 2 1)).pending = [.access (.regWrite 4 2 1)]
    ∧ (hosting .idle (.inRead 1 Config.inMemBytes)).pending = [.access (.inRead 1 Config.inMemBytes)]
    ∧ (hosting .idle (.inWrite 4 0 1)).pending = [.access (.inWrite 4 0 1)]
    ∧ (hosting .idle (.outRead 1 3600)).pending = [.access (.outRead 1 3600)]
    ∧ (hosting .idle (.outWrite 2 0 1)).pending = [.access (.outWrite 2 0 1)] :=
  ⟨rfl, rfl, rfl, rfl, rfl, rfl⟩
theorem witness_ResetInputResetsTheEngine :
    ({ filling true 3 with pending := [.reset] } : State).pending = [.reset]
    ∧ ({ filling true 3 with pending := [.reset] } : State).status = .busy
    ∧ ({ State.reset with pending := [.reset] } : State).status ≠ .busy := by decide
theorem witness_EngineWaitsForStart : State.reset.engineNext = true ∧ State.reset.status ≠ .busy := by decide

end Sys2Proof.Tests
end

section
/-! SUPPORT. What the engine's operations write and leave: sizes, the cursor, the zero units of a run, and, as relations
kept by every loop, the operations that write the packed planes only and those that write OUT only. -/

namespace Sys2Proof.Machine

/-! ### Sizes -/

theorem State.w_mul_w_le (s : State) : s.w * s.w ≤ 225 := by
  have h : s.w ≤ 15 := by have := s.width1.isLt; rw [State.w_eq]; omega
  calc s.w * s.w ≤ 15 * 15 := Nat.mul_le_mul h h
    _ = 225 := rfl

theorem State.lenUnits_le (s : State) : lenUnits s.w ≤ 7200 := by
  have := s.w_mul_w_le; unfold lenUnits; omega

theorem State.outBytes_le (s : State) : outBytes s.w ≤ Config.outMemBytes := by
  have := s.w_mul_w_le; unfold outBytes Config.outMemBytes; omega

theorem outBytes_eq (w : Nat) : outBytes w = 2 * packedBytes w := by
  unfold outBytes packedBytes; omega

/-! ### Loops -/

/-- A relation that is reflexive, transitive and met by every turn of a loop is met by the loop. -/
theorem loop_rel {R : State → State → Prop} (refl : ∀ s, R s s) (trans : ∀ {s t u}, R s t → R t u → R s u)
    {n : Nat} {body : Nat → State → State} (hbody : ∀ i < n, ∀ t, R t (body i t)) (s : State) :
    R s (loop n body s) :=
  loop_keeps (P := R s) (fun i hi t ht => trans ht (hbody i hi t)) (refl s)

/-! ### The cursor -/

/-- The cursor is in the stream exactly when its position is at most `8*L` (R73). -/
theorem State.cursorInStream_iff (s : State) : s.cursorInStream ↔ s.bitPos ≤ s.streamBits := by
  have hbit := s.bitIndex.isLt
  unfold State.cursorInStream State.bitPos State.streamBits
  constructor
  · rintro (h | ⟨h, h7⟩)
    · omega
    · rw [h, h7]; simp
  · intro h
    by_cases hlt : s.byteIndex.toNat < s.inLen.toNat
    · exact .inl hlt
    · have h7 : s.bitIndex.toNat = 7 := by omega
      exact .inr ⟨BitVec.eq_of_toNat_eq (by omega), BitVec.eq_of_toNat_eq h7⟩

/-- Bits are consumed forwards and never past the end of the stream (R17, R70). -/
theorem State.bitPos_consume (n : Nat) (s : State) :
    s.bitPos ≤ (s.consume n).bitPos ∧ (s.bitPos ≤ s.streamBits → (s.consume n).bitPos ≤ s.streamBits) := by
  induction n generalizing s with
  | zero => exact ⟨Nat.le_refl _, id⟩
  | succ n ih =>
    simp only [State.consume]
    split
    · exact ⟨Nat.le_refl _, id⟩
    · next b t h =>
      obtain ⟨hpos, hle⟩ := State.readBit_bitPos h
      have hlen : t.streamBits = s.streamBits := by rw [State.readBit_frame h]; rfl
      obtain ⟨ih1, ih2⟩ := ih t
      rw [hlen] at ih2
      exact ⟨by omega, fun _ => ih2 hle⟩

/-- Consuming bits keeps the cursor in the stream. -/
theorem State.cursorInStream_consume {s : State} (h : s.cursorInStream) (n : Nat) :
    (s.consume n).cursorInStream := by
  have hlen : (s.consume n).streamBits = s.streamBits := by rw [State.consume_frame]; rfl
  rw [State.cursorInStream_iff] at h ⊢
  rw [hlen]
  exact (s.bitPos_consume n).2 h

/-! ### The zero units of a run -/

/-- A run's units are zero and every other unit stays (R81). -/
theorem State.read?_appendZeros (s : State) (a : Nat) (sl : Bool) (i : Nat) :
    Cells.read? i ((s.appendZeros a).rawCells sl) =
      if sl = s.slot ∧ s.cnt.toNat ≤ i ∧ i < s.cnt.toNat + a then some 0 else Cells.read? i (s.rawCells sl) := by
  induction a with
  | zero =>
    have hno : ¬ (sl = s.slot ∧ s.cnt.toNat ≤ i ∧ i < s.cnt.toNat + 0) := by omega
    rw [if_neg hno]; rfl
  | succ a ih =>
    have hstep : s.appendZeros (a + 1) = (s.appendZeros a).writeRaw s.slot (s.cnt.toNat + a) 0 := rfl
    rw [hstep, State.rawCells_writeRaw]
    by_cases hsl : sl = s.slot
    · subst hsl
      rw [if_pos rfl, Cells.read?_write, ih]
      by_cases hi : i = s.cnt.toNat + a
      · simp [hi]
      · have hiff : i < s.cnt.toNat + (a + 1) ↔ i < s.cnt.toNat + a := by omega
        simp only [hi, if_false, hiff]
    · simp only [hsl, if_false, ih, false_and]

/-! ### Filling a plane -/

/-- `t` is `s` after a code word of a plane's body: only RAW, the count and the sub-pass registers change, the count
stays in the plane, and every unit counted has been written. -/
structure FillsPlane (s t : State) : Prop where
  frame : t = { s with raw0 := t.raw0, raw1 := t.raw1, m := t.m, cnt := t.cnt, g := t.g, k := t.k, n := t.n }
  cells : CellsWf s → CellsWf t
  cnt_le : t.cnt.toNat ≤ lenUnits s.w
  written : (∀ i < s.cnt.toNat, (Cells.read? i (s.rawCells s.slot)).isSome) →
    ∀ i < t.cnt.toNat, (Cells.read? i (t.rawCells s.slot)).isSome

theorem FillsPlane.exists_fields {s t : State} (h : FillsPlane s t) :
    ∃ r0 r1 m cnt g k n, t = { s with raw0 := r0, raw1 := r1, m := m, cnt := cnt, g := g, k := k, n := n } :=
  ⟨_, _, _, _, _, _, _, h.frame⟩

theorem FillsPlane.literalEnd {s : State} (hroom : s.cnt.toNat < lenUnits s.w) :
    FillsPlane s { s.nextSubPass with g := 0 } where
  frame := rfl
  cells := id
  cnt_le := Nat.le_of_lt hroom
  written := id

/-- A literal unit is written where the count stands (R78). -/
theorem FillsPlane.appendLiteral {s : State} (hroom : s.cnt.toNat < lenUnits s.w) (g : BitVec 2) :
    FillsPlane s (s.appendLiteral g) := by
  have hcnt : (s.appendLiteral g).cnt.toNat = s.cnt.toNat + 1 := by
    have hlen := s.lenUnits_le
    have h1 : (1 : BitVec 13).toNat = 1 := rfl
    simp only [State.appendLiteral, BitVec.toNat_add, h1]
    omega
  have hcells : (s.appendLiteral g).rawCells s.slot = (s.writeRaw s.slot s.cnt.toNat g).rawCells s.slot := rfl
  refine ⟨rfl, fun h => (writeRaw_wf h s.slot s.cnt.toNat g :), by omega, fun h i hi => ?_⟩
  rw [hcells, State.rawCells_writeRaw, if_pos rfl, Cells.read?_write]
  split
  · rfl
  · exact h i (by omega)

/-- The clamp of R82 keeps a run inside the plane, and its units are written from the count on (R81). -/
theorem FillsPlane.runPass {s : State} (hroom : s.cnt.toNat < lenUnits s.w) {e : Nat} (k : Nat) (x : BitVec e) :
    FillsPlane s (s.runPass k x) := by
  have hclamp : clampRun (runLength k x) (lenUnits s.w) s.cnt.toNat ≤ lenUnits s.w - s.cnt.toNat :=
    Nat.min_le_right ..
  have hframe := s.appendZeros_frame (clampRun (runLength k x) (lenUnits s.w) s.cnt.toNat)
  have hwf (h : CellsWf s) := appendZeros_wf h (clampRun (runLength k x) (lenUnits s.w) s.cnt.toNat)
  have hread := s.read?_appendZeros (clampRun (runLength k x) (lenUnits s.w) s.cnt.toNat) s.slot
  unfold State.runPass
  generalize clampRun (runLength k x) (lenUnits s.w) s.cnt.toNat = a at hclamp hframe hwf hread ⊢
  have hcnt : (s.cnt + BitVec.ofNat 13 a).toNat = s.cnt.toNat + a := by
    have hlen := s.lenUnits_le
    rw [BitVec.toNat_add, BitVec.toNat_ofNat]
    omega
  refine ⟨?_, hwf, (by rw [hcnt]; omega), fun h i (hi : i < (s.cnt + BitVec.ofNat 13 a).toNat) => ?_⟩
  · simp only [State.nextSubPass]
    generalize s.appendZeros a = u at hframe ⊢
    rw [hframe]
  · show (Cells.read? i ((s.appendZeros a).rawCells s.slot)).isSome
    rw [hread]
    split
    · rfl
    · next hout => exact h i (by simp only [true_and] at hout; omega)

/-! ### The packed planes -/

/-- The first `n` bytes of P[slot] have been written. -/
def State.packedTo (s : State) (slot : Bool) (n : Nat) : Prop :=
  ∀ b < n, (Cells.read? b (s.packedCells slot)).isSome

/-- `t` is `s` after writes to the packed planes and the carry: nothing else changes, and what was written stays
written. -/
structure OnlyPacks (s t : State) : Prop where
  frame : SameButPacked s t
  cells : CellsWf s → CellsWf t
  written : ∀ sl n, s.packedTo sl n → t.packedTo sl n

theorem OnlyPacks.refl (s : State) : OnlyPacks s s := ⟨rfl, id, fun _ _ => id⟩

theorem SameButPacked.exists_fields {s t : State} (h : SameButPacked s t) :
    ∃ p0 p1 c, t = { s with packed0 := p0, packed1 := p1, carry := c } := ⟨_, _, _, h⟩

theorem OnlyPacks.trans {s t u : State} (h : OnlyPacks s t) (h' : OnlyPacks t u) : OnlyPacks s u where
  frame := by
    have hst := h.frame
    have htu := h'.frame
    unfold SameButPacked at *
    rw [hst] at htu
    exact htu
  cells := h'.cells ∘ h.cells
  written sl n hs := h'.written sl n (h.written sl n hs)

theorem OnlyPacks.withCarry (s : State) (c : Bool) : OnlyPacks s { s with carry := c } := ⟨rfl, id, fun _ _ => id⟩

theorem OnlyPacks.writePacked (s : State) (sl : Bool) (b : Nat) (v : Byte) : OnlyPacks s (s.writePacked sl b v) where
  frame := rfl
  cells h := writePacked_wf h sl b v
  written sl' n h i hi := by
    rw [State.packedCells_writePacked]
    split
    · next heq =>
      subst heq
      rw [Cells.read?_write]
      split
      · rfl
      · exact h i hi
    · exact h i hi

theorem OnlyPacks.grayPlane (s : State) (sl : Bool) : OnlyPacks s (s.grayPlane sl) :=
  loop_rel .refl .trans (fun _ _ t => (OnlyPacks.withCarry t false).trans
    (loop_rel .refl .trans (fun _ _ u => (OnlyPacks.writePacked u ..).trans (.withCarry ..)) _)) s

theorem OnlyPacks.xorPlanes (s : State) : OnlyPacks s s.xorPlanes :=
  loop_rel .refl .trans (fun _ _ t => .writePacked t ..) s

/-- Each mode's merge writes the packed planes only (R98 to R100). -/
theorem OnlyPacks.merge {s u : State} (h : u = s.mergeMode0 ∨ u = s.mergeMode1 ∨ u = s.mergeMode2) :
    OnlyPacks s u := by
  rcases h with rfl | rfl | rfl
  · exact (OnlyPacks.grayPlane s false).trans (.grayPlane _ true)
  · exact (OnlyPacks.grayPlane s s.order).trans (.xorPlanes _)
  · exact ((OnlyPacks.grayPlane s false).trans (.grayPlane _ true)).trans (.xorPlanes _)

theorem OnlyPacks.writePackedFrom (s : State) (sl : Bool) (b : Nat) (vs : List Byte) :
    OnlyPacks s (s.writePackedFrom sl b vs) := by
  induction vs generalizing s b with
  | nil => exact .refl s
  | cons v rest ih => exact (OnlyPacks.writePacked s sl b v).trans (ih _ _)

theorem OnlyPacks.packPlane (s : State) (sl : Bool) : OnlyPacks s (s.packPlane sl) := .writePackedFrom s sl 0 _

/-- The bytes below the list stay written, those of the list are written. -/
theorem State.packedTo_writePackedFrom {s : State} {sl : Bool} {b : Nat} (h : s.packedTo sl b) (vs : List Byte) :
    (s.writePackedFrom sl b vs).packedTo sl (b + vs.length) := by
  induction vs generalizing s b with
  | nil => exact h
  | cons v rest ih =>
    have hnext : (s.writePacked sl b v).packedTo sl (b + 1) := by
      intro i hi
      rw [State.packedCells_writePacked, if_pos rfl, Cells.read?_write]
      split
      · rfl
      · exact h i (by omega)
    have hlen : b + (v :: rest).length = b + 1 + rest.length := by simp only [List.length_cons]; omega
    rw [hlen]
    exact ih hnext

/-- Deinterleave gathers every unit of a plane (R87). -/
theorem State.deinterleave_length (s : State) (sl : Bool) : (s.deinterleave sl).length = lenUnits s.w := by
  simp only [State.deinterleave, List.length_flatMap, List.length_map, List.length_range, List.map_const',
    List.sum_replicate_nat, lenUnits]
  grind

theorem packUnits_length (us : List RawUnit) : (packUnits us).length = us.length / 4 := by
  induction us using packUnits.induct with
  | case1 u0 u1 u2 u3 rest ih => simp only [packUnits, List.length_cons, ih]; omega
  | case2 us hshort =>
    match us, hshort with
    | [], _ | [_], _ | [_, _], _ | [_, _, _], _ => simp [packUnits]
    | u0 :: u1 :: u2 :: u3 :: rest, hshort => exact absurd rfl (hshort u0 u1 u2 u3 rest)

/-- Packing writes all `S(W)` bytes of the plane (R88). -/
theorem State.packedTo_packPlane (s : State) (sl : Bool) : (s.packPlane sl).packedTo sl (packedBytes s.w) := by
  have hlen : (packUnits (s.deinterleave sl)).length = packedBytes s.w := by
    rw [packUnits_length, State.deinterleave_length]
    unfold lenUnits packedBytes
    omega
  have h := State.packedTo_writePackedFrom (s := s) (sl := sl) (b := 0) (fun _ hb => absurd hb (Nat.not_lt_zero _))
    (packUnits (s.deinterleave sl))
  rwa [hlen, Nat.zero_add] at h

/-! ### OUT -/

/-- `t` is `s` after writes to OUT below `n`. -/
structure OnlyOut (n : Nat) (s t : State) : Prop where
  frame : t = { s with outMem := t.outMem }
  cells : CellsWf s → CellsWf t
  beyond : ∀ b, n ≤ b → t.outByte b = s.outByte b
  listed : ∀ c ∈ t.outMem, c.1 < n ∨ c ∈ s.outMem

section
variable {n : Nat}

theorem OnlyOut.refl (s : State) : OnlyOut n s s := ⟨rfl, id, fun _ _ => rfl, fun _ => .inr⟩

theorem OnlyOut.trans {s t u : State} (h : OnlyOut n s t) (h' : OnlyOut n t u) : OnlyOut n s u where
  frame := by
    have hst := h.frame
    have htu := h'.frame
    rw [hst] at htu
    exact htu
  cells := h'.cells ∘ h.cells
  beyond b hb := (h'.beyond b hb).trans (h.beyond b hb)
  listed c hc := (h'.listed c hc).elim .inl (h.listed c)

theorem OnlyOut.writeOut (s : State) {a : Nat} (v : Byte) (ha : a < n) : OnlyOut n s (s.writeOut a v) where
  frame := rfl
  cells h := writeOut_wf h a v
  beyond b hb := by rw [State.outByte_writeOut, if_neg (by omega)]
  listed _ hc := (Cells.mem_write hc).imp_left fun h => by rw [h]; exact ha

theorem OnlyOut.writeTwo (s : State) {a b : Nat} (v u : Byte) (ha : a < n) (hb : b < n) :
    OnlyOut n s ((s.writeOut a v).writeOut b u) :=
  (OnlyOut.writeOut s v ha).trans (.writeOut _ u hb)

end

/-- Interleave writes only the output's bytes (R104). -/
theorem OnlyOut.interleave (s : State) : OnlyOut (outBytes s.w) s s.interleave :=
  loop_rel .refl .trans (fun i hi t => by
    have := outBytes_eq s.w
    exact .writeTwo t _ _ (by omega) (by omega)) s

/-- A swap of blocks of the output writes only the output's bytes (R106). -/
theorem OnlyOut.swapBlocks (s : State) {w i j : Nat} (hi : i < w * w) (hj : j < w * w) :
    OnlyOut (outBytes w) s (s.swapBlocks i j) :=
  loop_rel .refl .trans (fun d hd t => by
    unfold outBytes
    exact .writeTwo t _ _ (by omega) (by omega)) s

/-- Transpose writes only the output's bytes (R106). -/
theorem OnlyOut.transpose (s : State) : OnlyOut (outBytes s.w) s s.transpose :=
  loop_rel .refl .trans (fun i hi t => by
    split
    · exact .swapBlocks t hi (Nat.mod_lt _ (Nat.zero_lt_of_lt hi))
    · exact .refl t) s

/-- The whole OUTPUT stage writes only the output's bytes (R119). -/
theorem OnlyOut.output (s : State) : OnlyOut (outBytes s.w) s s.interleave.transpose := by
  have hi := OnlyOut.interleave s
  have hw : s.interleave.w = s.w := by rw [hi.frame]; rfl
  exact hi.trans (hw ▸ .transpose s.interleave)

end Sys2Proof.Machine
end

section
/-! SUPPORT. The reading rules of the state proofs: the host's CTRL word as the decoder sees it, whose turn it is, what a
code word and a stage can do, and the inversion of a step that the invariant, cursor and decode proofs go through. -/

namespace Sys2Proof

/-- The list reader takes back the bits of a field, and leaves what follows (R42, R71). -/
theorem takeInt_bitsOf_append {n : Nat} (v : BitVec n) (rest : List Bool) :
    takeInt n (bitsOf v ++ rest) = some (v, rest) := by
  induction n with
  | zero => simp [takeInt, bitsOf, BitVec.eq_nil v]
  | succ n ih =>
    simp only [bitsOf, List.cons_append, takeInt, ih (v.setWidth n), Option.map_some, BitVec.cons_msb_setWidth]

/-- A CTRL word with bit 0 set is the START command (R28, R110). -/
theorem decode_ctrlWrite_of_start {v : BitVec 32} (h : v.getLsbD 0 = true) :
    decode .ctrlWrite (bitsOf v) = .code (.cmdStart (v.extractLsb' 1 31)) [] := by
  have hv : takeInt 32 (bitsOf v) = some (v, []) := by simpa using takeInt_bitsOf_append v []
  simp [decode, decodeCtrl, hv, h]

/-- A CTRL word with bit 0 clear is no command (R28). -/
theorem decode_ctrlWrite_of_clear {v : BitVec 32} (h : v.getLsbD 0 = false) :
    decode .ctrlWrite (bitsOf v) = .reject .noCommand := by
  have hv : takeInt 32 (bitsOf v) = some (v, []) := by simpa using takeInt_bitsOf_append v []
  simp only [decode, decodeCtrl, hv, h, Bool.false_eq_true, if_false]

namespace Machine

/-! ### The fetch -/

theorem State.fetchAccess_ctrl_start (s : State) {v : Word} (h : v.getLsbD 0 = true) :
    s.fetchAccess (.regWrite 4 0 v) = .instr (.cmdStart (v.extractLsb' 1 31)) s := by
  simp [State.fetchAccess, decode_ctrlWrite_of_start h]

theorem State.fetchAccess_ctrl_clear (s : State) {v : Word} (h : v.getLsbD 0 = false) :
    s.fetchAccess (.regWrite 4 0 v) = .access (.regWrite 4 0 v) s := by
  simp [State.fetchAccess, decode_ctrlWrite_of_clear h]

/-- An access that is no write to CTRL is performed as an access. -/
theorem State.fetchAccess_of_not_ctrl (s : State) {a : Access} (h : ∀ v, a ≠ .regWrite 4 0 v) :
    s.fetchAccess a = .access a s := by
  rcases s.fetchAccess_cases a with hf | ⟨v, _, _, ha, _, _⟩
  · exact hf
  · exact absurd ha (h v)

theorem State.pop_eq_of_pending {s : State} {e : Event} {rest : List Event} (h : s.pending = e :: rest) :
    s.pop = { s with pending := rest } := by
  simp [State.pop, h]

/-- The host's turn, on the state with the event taken. -/
theorem State.fetch_access_pop {s : State} {a : Access} {rest : List Event} (h : s.pending = .access a :: rest) :
    s.fetch = s.pop.fetchAccess a := by
  rw [State.fetch_access h, State.pop_eq_of_pending h]

/-- Whose turn it is. -/
theorem State.fetch_cases (s : State) :
    (s.engineNext = true ∧ s.fetch = s.pop.fetchEngine)
    ∨ (∃ a, s.fetch = s.pop.fetchAccess a)
    ∨ (s.pending.head? = some .reset ∧ s.fetch = .reset s.pop) := by
  match h : s.pending with
  | [] =>
    have he : s.engineNext = true := by simp [State.engineNext, h]
    exact .inl ⟨he, State.pop_of_engineNext he⟩
  | .engine :: _ =>
    have he : s.engineNext = true := by simp [State.engineNext, h]
    exact .inl ⟨he, State.pop_of_engineNext he⟩
  | .access a :: _ => exact .inr (.inl ⟨a, State.fetch_access_pop h⟩)
  | .reset :: _ => exact .inr (.inr ⟨rfl, by rw [State.fetch_reset h, State.pop_eq_of_pending h]⟩)

/-- A step at a host access of the interface that is no CTRL write has that access's effect. -/
theorem step_of_access {s : State} {a : Access} {rest : List Event} (h : s.pending = .access a :: rest)
    (hctrl : ∀ v, a ≠ .regWrite 4 0 v) (hwf : a.wf = true) : step s = .next (s.pop.hostEffect a) := by
  simp [step, State.fetch_access_pop h, State.fetchAccess_of_not_ctrl _ hctrl, State.hostAccess, hwf]

/-! ### The parse state -/

/-- Where each code word is read: the stage that reads it, and room in the plane for a group or a run code (R56, R77). -/
theorem State.parse_cases {s : State} {p : ParseState} (h : s.parse = some p) :
    (p = .width1 ∧ s.stage = .header .width1) ∨ (p = .width2 ∧ s.stage = .header .width2)
    ∨ (p = .order ∧ s.stage = .header .order)
    ∨ (p = .planeStart ∧ (s.stage = .planeA .start ∨ s.stage = .planeB .start))
    ∨ (p = .mode ∧ s.stage = .mode)
    ∨ ((p = .literal ∨ p = .run) ∧ s.stage.inBody ∧ s.cnt.toNat < lenUnits s.w) := by
  have hb := State.busy_of_parse h
  have body (hp : s.bodyParse = some p) : (p = .literal ∨ p = .run) ∧ s.cnt.toNat < lenUnits s.w := by
    unfold State.bodyParse at hp
    split at hp
    · cases hp
      exact ⟨by cases s.m <;> simp, ‹_›⟩
    · cases hp
  simp only [State.parse, hb, if_true] at h
  split at h
  · cases h; simp [*]
  · cases h; simp [*]
  · cases h; simp [*]
  · cases h; simp [*]
  · simp [*, Stage.inBody, body h]
  · cases h; simp [*]
  · cases h; simp [*]
  · simp [*, Stage.inBody, body h]
  · cases h

/-! ### What a code word or command can do -/

/-- What a code word that goes on with the decode does: one constructor per effect of R76 to R82, R113 to R116. -/
inductive Advance (s : State) : State → Prop
  | width1 (w : BitVec 4) : s.parse = some .width1 → Advance s { s with width1 := w, stage := .header .width2 }
  | width2 : s.parse = some .width2 → Advance s { s with width2 := s.width1, stage := .header .order }
  | order (o : Bool) :
    s.parse = some .order → Advance s { s with order := o, slot := o, stage := .planeA .start }
  | openPlane (m : Bool) : s.parse = some .planeStart → Advance s (s.openPlane m)
  | fill {t : State} : s.stage.inBody → FillsPlane s t → Advance s t
  | mode (v : BitVec 2) : v ≠ 3 → s.parse = some .mode → Advance s (s.setMode v)

/-- What the meaning of an instruction can answer: it goes on with the decode, raises one of the two errors of a code
word (R83, R113), or is the START command (R110, R111). -/
inductive CodeStep (s : State) : State → Prop
  | advance {t : State} : Advance s t → CodeStep s t
  | mismatch (v : BitVec 4) : CodeStep s (State.abort .widthMismatch { s with width2 := v })
  | invalidRun : CodeStep s (State.abort .invalidRunLength { s with k := 16 })
  | start : s.status ≠ .busy → CodeStep s s.start
  | startIgnored : s.status = .busy → CodeStep s s

/-- A literal group or a run code is read in a plane's body, with room in the plane (R77). -/
theorem Advance.body {s t : State} {p : ParseState} (h : s.parse = some p) (hp : p = .literal ∨ p = .run)
    (hfill : s.cnt.toNat < lenUnits s.w → FillsPlane s t) : Advance s t := by
  have hbody : s.stage.inBody ∧ s.cnt.toNat < lenUnits s.w := by
    have hcases := State.parse_cases h
    rcases hp with rfl | rfl <;> simpa using hcases
  exact .fill hbody.1 (hfill hbody.2)

theorem State.next_of_inPlace {s t u : State} {p : ParseState} (h : s.inPlace p (.next u) = .next t) :
    s.parse = some p ∧ u = t := by
  obtain ⟨hp, hu⟩ := (State.inPlace_next_iff ..).mp h
  exact ⟨hp, by cases hu; rfl⟩

theorem exec_codeStep {i : Instr} {s t : State} (h : exec i s = .next t) : CodeStep s t := by
  cases i with
  | hdrWidth1 w => obtain ⟨hp, rfl⟩ := State.next_of_inPlace h; exact .advance (.width1 w hp)
  | hdrWidth2 v =>
    obtain ⟨hp, rfl⟩ := State.next_of_inPlace h
    split
    · next hv => rw [hv]; exact .advance (.width2 hp)
    · exact .mismatch v
  | hdrOrder o => obtain ⟨hp, rfl⟩ := State.next_of_inPlace h; exact .advance (.order o hp)
  | pmodeRun | pmodeLit => obtain ⟨hp, rfl⟩ := State.next_of_inPlace h; exact .advance (.openPlane _ hp)
  | litEnd => obtain ⟨hp, rfl⟩ := State.next_of_inPlace h; exact .advance (.body hp (.inl rfl) FillsPlane.literalEnd)
  | lit1 | lit2 | lit3 =>
    obtain ⟨hp, rfl⟩ := State.next_of_inPlace h
    exact .advance (.body hp (.inl rfl) (FillsPlane.appendLiteral · _))
  | runK0 x | runK1 x | runK2 x | runK3 x | runK4 x | runK5 x | runK6 x | runK7 x | runK8 x | runK9 x | runK10 x
  | runK11 x | runK12 x | runK13 x | runK14 x | runK15 x =>
    obtain ⟨hp, rfl⟩ := State.next_of_inPlace h
    exact .advance (.body hp (.inr rfl) (FillsPlane.runPass · _ x))
  | runInvalid => obtain ⟨_, rfl⟩ := State.next_of_inPlace h; exact .invalidRun
  | mode0 | mode1 | mode2 => obtain ⟨hp, rfl⟩ := State.next_of_inPlace h; exact .advance (.mode _ (by decide) hp)
  | cmdStart x =>
    simp only [exec, execCmdStart, Host.Outcome.next.injEq] at h
    subst h
    split
    · next hb => exact .startIgnored hb
    · next hb => exact .start hb

/-! ### What a stage can do -/

/-- What a stage that reads no stream does: it packs the plane just filled, merges the planes, writes OUT, or ends the
decode (R75, R118 to R120). -/
inductive WorkStep (s : State) : State → Prop
  | packFirst : s.stage = .planeA .body → WorkStep s { s.packPlane s.slot with stage := .mode }
  | packSecond : s.stage = .planeB .body → WorkStep s { s.packPlane s.slot with stage := .merge }
  | merge (u : State) : u = s.mergeMode0 ∨ u = s.mergeMode1 ∨ u = s.mergeMode2 → s.stage = .merge →
    WorkStep s { u with stage := .output }
  | output : s.stage = .output → WorkStep s { s.interleave.transpose with stage := .finish }
  | finish : s.stage = .finish → WorkStep s s.finishDecode

theorem workStep_of_engineWork {s t : State} (h : s.engineWork = .next t) : WorkStep s t := by
  rcases State.engineWork_cases h with ⟨hs, rfl⟩ | ⟨hs, rfl⟩ | ⟨hs, _, rfl⟩ | ⟨hs, _, rfl⟩ | ⟨hs, _, rfl⟩ | ⟨hs, rfl⟩
    | ⟨hs, rfl⟩
  · exact .packFirst hs
  · exact .packSecond hs
  · exact .merge _ (.inl rfl) hs
  · exact .merge _ (.inr (.inl rfl)) hs
  · exact .merge _ (.inr (.inr rfl)) hs
  · exact .output hs
  · exact .finish hs

/-! ### What a step can do -/

/-- What a step can answer, over the state with its event taken: a code word past the cursor, the end of the stream
inside one, a stage's work, a turn that changes nothing, a command, a host access, the reset input. -/
inductive StepBy (s : State) : State → Prop
  | code {t : State} (n : Nat) : s.status = .busy → CodeStep (s.pop.consume n) t → StepBy s t
  | endOfStream (n : Nat) : s.status = .busy → StepBy s (State.abort .outOfData (s.pop.consume n))
  | work {t : State} : s.status = .busy → WorkStep s.pop t → StepBy s t
  | wait : StepBy s s.pop
  | command {t : State} : CodeStep s.pop t → StepBy s t
  | access (a : Access) : a.wf = true → StepBy s (s.pop.hostEffect a)
  | reset : s.pending.head? = some .reset → StepBy s s.pop.resetInput

theorem stepBy_of_step {s t : State} (h : step s = .next t) : StepBy s t := by
  unfold step at h
  rcases s.fetch_cases with ⟨_, hf⟩ | ⟨a, hf⟩ | ⟨hr, hf⟩
  · rcases s.pop.fetchEngine_cases with ⟨_, he⟩ | ⟨hb, _, he⟩ | ⟨p, hp, he⟩
    · rw [hf, he] at h; cases h; exact .wait
    · rw [hf, he] at h; exact .work hb (workStep_of_engineWork h)
    · have hb : s.status = .busy := State.busy_of_parse hp
      rcases s.pop.fetchCode_cases p with ⟨i, rest, _, hc⟩ | ⟨_, _, hc⟩
      · rw [hf, he, hc] at h; exact .code _ hb (exec_codeStep h)
      · rw [hf, he, hc] at h; cases h; exact .endOfStream _ hb
  · rcases s.pop.fetchAccess_cases a with ha | ⟨_, _, _, _, _, ha⟩
    · rw [hf, ha] at h
      obtain ⟨hwf, rfl⟩ := (State.hostAccess_next_iff ..).mp h
      exact .access a hwf
    · rw [hf, ha] at h; exact .command (exec_codeStep h)
  · rw [hf] at h; cases h; exact .reset hr

end Machine
end Sys2Proof
end

section
/-! SUPPORT. The invariant in three parts, each kept by every step by itself: what the memories hold, what the registers
show, and what the planes hold. Then the statements on the invariant (O43, O44). -/

namespace Sys2Proof.Machine

/-! ### The parts of the invariant -/

/-- The part of `Inv` on the memories and IN_LEN (R30, R36). -/
structure MemInv (s : State) : Prop where
  cells : CellsWf s
  inMem_range : ∀ c ∈ s.inMem, c.1 < Config.inMemBytes
  outMem_range : ∀ c ∈ s.outMem, c.1 < Config.outMemBytes
  inLen_le : s.inLen.toNat ≤ Config.inMemBytes

/-- The part of `Inv` on STATUS, the stage, HDR.MODE, the cursor and OUT_COUNT (R17, R18, R29, R31, R33). -/
structure RegInv (s : State) : Prop where
  err_iff : s.err ≠ .none ↔ s.status = .error
  busy_iff : s.status = .busy ↔ s.stage ≠ .idle
  mode_legal : s.mode ≠ 3
  cursor_le : s.status = .busy → s.cursorInStream
  cursor_shown : s.status ≠ .busy → s.curByte = s.byteIndex ∧ s.curBit = s.bitIndex
  outCount_done : s.status = .done → s.outCount.toNat = outBytes s.w
  outCount_zero : s.status ≠ .done → s.outCount = 0

/-- The part of `Inv` on the width and the planes, by stage (R19, R23, R96, R113). -/
structure PlaneInv (s : State) : Prop where
  widths_agree : s.stage ≠ .idle → s.stage ≠ .header .width1 → s.stage ≠ .header .width2 → s.width1 = s.width2
  slot_first : ∀ p, s.stage = .planeA p → s.slot = s.order
  slot_second : ∀ p, s.stage = .planeB p → s.slot = !s.order
  cnt_le : s.stage.inBody → s.cnt.toNat ≤ lenUnits s.w
  raw_written : s.stage.inBody → ∀ i < s.cnt.toNat, (Cells.read? i (s.rawCells s.slot)).isSome
  first_packed : (s.stage = .mode ∨ (∃ p, s.stage = .planeB p) ∨ s.stage = .merge ∨ s.stage = .output) →
    s.packedTo s.order (packedBytes s.w)
  second_packed : (s.stage = .merge ∨ s.stage = .output) → s.packedTo (!s.order) (packedBytes s.w)

/-- The two parts that need nothing of the memories. -/
structure EngineInv (s : State) : Prop where
  regs : RegInv s
  planes : PlaneInv s

theorem inv_iff (s : State) : Inv s ↔ MemInv s ∧ EngineInv s := by
  constructor
  · intro h
    exact ⟨⟨⟨h.inMem_wf, h.outMem_wf, h.raw_wf, h.packed_wf⟩, h.inMem_range, h.outMem_range, h.inLen_le⟩,
      { h with }, { h with }⟩
  · rintro ⟨hmem, hregs, hplanes⟩
    obtain ⟨hin, hout, hraw, hpacked⟩ := hmem.cells
    exact { hmem, hregs, hplanes with inMem_wf := hin, outMem_wf := hout, raw_wf := hraw, packed_wf := hpacked }

/-! ### What the host and a moved cursor do to the parts -/

theorem MemInv.of_same {s t : State} (h : MemInv s) (hcells : CellsWf t) (hin : t.inMem = s.inMem)
    (hout : t.outMem = s.outMem) (hlen : t.inLen = s.inLen) : MemInv t where
  cells := hcells
  inMem_range := hin ▸ h.inMem_range
  outMem_range := hout ▸ h.outMem_range
  inLen_le := hlen ▸ h.inLen_le

theorem MemInv.pop {s : State} (h : MemInv s) : MemInv s.pop := { h with }

theorem MemInv.consume {s : State} (h : MemInv s) (n : Nat) : MemInv (s.consume n) := by
  rw [State.consume_frame]; exact { h with }

theorem EngineInv.pop {s : State} (h : EngineInv s) : EngineInv s.pop := ⟨{ h.regs with }, { h.planes with }⟩

/-- A BUSY engine's cursor may move inside the stream. -/
theorem EngineInv.consume {s : State} (h : EngineInv s) (hb : s.status = .busy) (n : Nat) :
    EngineInv (s.consume n) := by
  have hcur := State.cursorInStream_consume (h.regs.cursor_le hb) n
  have hframe := s.consume_frame n
  generalize s.consume n = u at hcur hframe ⊢
  rw [hframe] at hcur ⊢
  exact ⟨{ h.regs with cursor_le := fun _ => hcur, cursor_shown := fun hnb => absurd hb hnb }, { h.planes with }⟩

/-- What a host access can do: nothing but the host's own record, or, outside BUSY, a write of IN_LEN or of IN (R49). -/
theorem State.hostEffect_cases (s : State) (a : Access) :
    SameButHost s (s.hostEffect a)
    ∨ (s.status ≠ .busy ∧ ∃ v : Word,
        s.hostEffect a = { s with inLen := BitVec.ofNat 32 (min v.toNat Config.inMemBytes) })
    ∨ (s.status ≠ .busy ∧ ∃ bytes b v, a = .inWrite bytes b v ∧ s.hostEffect a = s.writeIn b v) := by
  cases a with
  | regRead _ off =>
    refine .inl ?_
    simp only [State.hostEffect, State.regRead, State.seeResult]
    repeat' split
    all_goals rfl
  | regWrite _ off v =>
    simp only [State.hostEffect, State.regWrite]
    split
    · next h => exact .inr (.inl ⟨h.2, v, rfl⟩)
    · exact .inl rfl
  | inRead _ _ => exact .inl rfl
  | inWrite bytes b v =>
    simp only [State.hostEffect]
    split
    · exact .inl rfl
    · next h => exact .inr (.inr ⟨h, bytes, b, v, rfl, rfl⟩)
  | outRead _ _ =>
    refine .inl ?_
    simp only [State.hostEffect, State.outRead]
    split <;> rfl
  | outWrite _ _ _ => exact .inl rfl

/-- The clamp of R30 fits the register. -/
theorem toNat_clampInLen (v : Word) :
    (BitVec.ofNat 32 (min v.toNat Config.inMemBytes)).toNat = min v.toNat Config.inMemBytes := by
  rw [BitVec.toNat_ofNat]
  exact Nat.mod_eq_of_lt (Nat.lt_of_le_of_lt (Nat.min_le_left ..) v.isLt)

theorem MemInv.hostEffect {s : State} (h : MemInv s) {a : Access} (hwf : a.wf = true) : MemInv (s.hostEffect a) := by
  have hcells := hostEffect_wf h.cells a
  rcases s.hostEffect_cases a with hsame | ⟨_, v, he⟩ | ⟨_, bytes, b, v, rfl, he⟩
  · rw [hsame] at hcells ⊢; exact h.of_same hcells rfl rfl rfl
  · rw [he]; exact { h with inLen_le := Nat.le_trans (Nat.le_of_eq (toNat_clampInLen v)) (Nat.min_le_right ..) }
  · rw [he] at hcells ⊢
    have hb : b < Config.inMemBytes := by
      have : bytes = 1 ∧ b < Config.inMemBytes := by simpa [Access.wf, inAccessOk] using hwf
      exact this.2
    have hrange : ∀ c ∈ (s.writeIn b v).inMem, c.1 < Config.inMemBytes := fun c hc =>
      (Cells.mem_write hc).elim (fun heq => heq ▸ hb) (h.inMem_range c)
    exact { h with cells := hcells, inMem_range := hrange }

theorem EngineInv.sameButHost {s t : State} (h : EngineInv s) (hst : SameButHost s t) : EngineInv t := by
  rw [hst]; exact ⟨{ h.regs with }, { h.planes with }⟩

theorem EngineInv.hostEffect {s : State} (h : EngineInv s) (a : Access) : EngineInv (s.hostEffect a) := by
  rcases s.hostEffect_cases a with hsame | ⟨hnb, _, he⟩ | ⟨hnb, _, _, _, _, he⟩
  · exact h.sameButHost hsame
  all_goals rw [he]; exact ⟨{ h.regs with cursor_le := fun hb => absurd hb hnb }, { h.planes with }⟩

/-! ### What starts and ends a decode -/

/-- Where no plane has been opened the planes owe nothing. -/
theorem PlaneInv.of_unopened {s : State}
    (h : s.stage = .idle ∨ s.stage = .header .width1 ∨ s.stage = .header .width2) : PlaneInv s := by
  constructor <;> rcases h with h | h | h <;> simp [h, Stage.inBody]

theorem EngineInv.abort {s : State} (hmode : s.mode ≠ 3) {e : ErrCode} (he : e ≠ .none) :
    EngineInv (State.abort e s) where
  planes := .of_unopened (.inl rfl)
  regs := by
    constructor
    case mode_legal => exact hmode
    all_goals simp [he]

theorem EngineInv.finishDecode {s : State} (hmode : s.mode ≠ 3) : EngineInv s.finishDecode where
  planes := .of_unopened (.inl rfl)
  regs := by
    have hfit : outBytes s.w % 2 ^ 32 = outBytes s.w := by
      have := s.outBytes_le
      unfold Config.outMemBytes at this
      omega
    constructor
    case mode_legal => exact hmode
    case outCount_done => exact fun _ => (BitVec.toNat_ofNat ..).trans hfit
    all_goals simp

theorem EngineInv.start (s : State) : EngineInv s.start where
  planes := .of_unopened (.inr (.inl rfl))
  regs := by
    have hcur : s.start.cursorInStream := by
      rw [State.cursorInStream_iff]; simp [State.bitPos]
    constructor <;> simp [hcur]

theorem EngineInv.resetInput (s : State) : EngineInv s.resetInput where
  planes := .of_unopened (.inl rfl)
  regs := by constructor <;> simp

theorem MemInv.abort {s : State} (h : MemInv s) (e : ErrCode) : MemInv (State.abort e s) :=
  have hcells : CellsWf s.forget := forget_wf h.cells
  h.of_same hcells rfl rfl rfl

theorem MemInv.resetInput {s : State} (h : MemInv s) : MemInv s.resetInput := by
  obtain ⟨hin, hout, hraw, hpacked⟩ := forget_wf h.cells
  refine ⟨⟨hin, ?_, hraw, hpacked⟩, h.inMem_range, ?_, by simp⟩
  · rw [State.resetInput_outMem]
    split
    · rfl
    · exact hout
  · rw [State.resetInput_outMem]
    split
    · simp
    · exact h.outMem_range

/-! ### What the engine does between the START command and the end of a decode -/

/-- What every engine step of a decode leaves: the cursor it was handed, IN_LEN, IN and the era of OUT. -/
structure SameStream (s t : State) : Prop where
  byteIndex : t.byteIndex = s.byteIndex
  bitIndex : t.bitIndex = s.bitIndex
  inLen : t.inLen = s.inLen
  inMem : t.inMem = s.inMem
  outEra : t.outEra = s.outEra

/-- An engine step that goes on with the decode: STATUS and OUT_COUNT stay, and some stage is in progress. -/
structure DecodesOn (s t : State) : Prop extends SameStream s t where
  status : t.status = s.status
  err : t.err = s.err
  outCount : t.outCount = s.outCount
  stage : t.stage ≠ .idle

theorem SameStream.refl (s : State) : SameStream s s := ⟨rfl, rfl, rfl, rfl, rfl⟩

theorem SameStream.abort (e : ErrCode) (s : State) : SameStream s (State.abort e s) := ⟨rfl, rfl, rfl, rfl, rfl⟩

theorem RegInv.err_none {s : State} (h : RegInv s) (hs : s.status ≠ .error) : s.err = .none :=
  Decidable.byContradiction fun hne => hs (h.err_iff.mp hne)

/-- While the decode goes on the registers stay consistent. -/
theorem RegInv.decodesOn {s t : State} (h : RegInv s) (hb : s.status = .busy) (hon : DecodesOn s t)
    (hmode : t.mode ≠ 3) : RegInv t := by
  have hbt : t.status = .busy := hon.status.trans hb
  have hcur : t.cursorInStream := by
    have := h.cursor_le hb
    simpa only [State.cursorInStream, hon.byteIndex, hon.bitIndex, hon.inLen] using this
  have herr : t.err = .none := hon.err.trans (h.err_none (by simp [hb]))
  have hcount : t.outCount = 0 := by
    rw [hon.outCount]
    exact h.outCount_zero (by simp [hb])
  constructor
  case mode_legal => exact hmode
  all_goals simp [hbt, hcur, herr, hcount, hon.stage]

/-! ### Code words that go on with the decode -/

theorem Stage.inBody.ne_idle {g : Stage} (h : g.inBody) : g ≠ .idle := by
  rcases h with h | h <;> simp [h]

theorem Stage.inBody.ne_finish {g : Stage} (h : g.inBody) : g ≠ .finish := by
  rcases h with h | h <;> simp [h]

theorem Advance.decodesOn {s t : State} (h : Advance s t) : DecodesOn s t := by
  cases h with
  | width1 _ _ | width2 _ | order _ _ | mode _ _ _ => exact ⟨⟨rfl, rfl, rfl, rfl, rfl⟩, rfl, rfl, rfl, by simp⟩
  | openPlane m hp =>
    have hbody : s.stage.body ≠ .idle := by unfold Stage.body; split <;> simp
    exact ⟨⟨rfl, rfl, rfl, rfl, rfl⟩, rfl, rfl, rfl, hbody⟩
  | fill hbody hfill =>
    obtain ⟨_, _, _, _, _, _, _, rfl⟩ := hfill.exists_fields
    exact ⟨⟨rfl, rfl, rfl, rfl, rfl⟩, rfl, rfl, rfl, hbody.ne_idle⟩

theorem Advance.mode_legal {s t : State} (h : Advance s t) (hs : s.mode ≠ 3) : t.mode ≠ 3 := by
  cases h with
  | mode v hv _ => exact hv
  | fill _ hfill => rw [hfill.frame]; exact hs
  | _ => exact hs

theorem Advance.outMem {s t : State} (h : Advance s t) : t.outMem = s.outMem := by
  cases h with
  | fill _ hfill => rw [hfill.frame]
  | _ => rfl

/-- Code words are read neither without a stage nor at FINISH, and none leads to FINISH. -/
theorem Advance.stages {s t : State} (h : Advance s t) :
    s.stage ≠ .idle ∧ s.stage ≠ .finish ∧ t.stage ≠ .finish := by
  cases h with
  | width1 _ hp | width2 hp | order _ hp | mode _ _ hp =>
    have hs := State.parse_cases hp
    simp only [reduceCtorEq, false_and, true_and, false_or, or_false, or_self] at hs
    simp [hs]
  | openPlane m hp =>
    have hs : s.stage = .planeA .start ∨ s.stage = .planeB .start := by simpa using State.parse_cases hp
    rcases hs with hs | hs <;> simp [hs, Stage.body]
  | fill hbody hfill =>
    have hstage : t.stage = s.stage := by rw [hfill.frame]
    exact ⟨hbody.ne_idle, hbody.ne_finish, hstage ▸ hbody.ne_finish⟩

theorem Advance.cells {s t : State} (h : Advance s t) (hs : CellsWf s) : CellsWf t := by
  cases h with
  | fill _ hfill => exact hfill.cells hs
  | _ => exact hs

/-- The slots, the counts and the packed planes stay consistent through every code word of a decode. -/
theorem PlaneInv.advance {s t : State} (h : PlaneInv s) (hst : Advance s t) : PlaneInv t := by
  cases hst with
  | width1 w hp => exact .of_unopened (.inr (.inr rfl))
  | width2 hp => constructor <;> simp [Stage.inBody]
  | order o hp =>
    have hs : s.stage = .header .order := by simpa using State.parse_cases hp
    have hwidths := h.widths_agree (by simp [hs]) (by simp [hs]) (by simp [hs])
    constructor <;> simp [Stage.inBody, hwidths]
  | openPlane m hp =>
    have hs : s.stage = .planeA .start ∨ s.stage = .planeB .start := by simpa using State.parse_cases hp
    rcases hs with hs | hs
    · have hwidths := h.widths_agree (by simp [hs]) (by simp [hs]) (by simp [hs])
      have hslot := h.slot_first _ hs
      constructor <;> simp [hs, Stage.body, Stage.inBody, hwidths, hslot]
    · have hwidths := h.widths_agree (by simp [hs]) (by simp [hs]) (by simp [hs])
      have hslot := h.slot_second _ hs
      have hpacked : (s.openPlane m).packedTo s.order (packedBytes s.w) := h.first_packed (.inr (.inl ⟨_, hs⟩))
      constructor <;> simp [hs, Stage.body, Stage.inBody, hwidths, hslot, hpacked]
  | fill hbody hfill =>
    have hcnt := hfill.cnt_le
    have hwritten := hfill.written (h.raw_written hbody)
    obtain ⟨_, _, _, _, _, _, _, rfl⟩ := hfill.exists_fields
    exact { h with cnt_le := fun _ => hcnt, raw_written := fun _ => hwritten }
  | mode v _ hp =>
    have hs : s.stage = .mode := by simpa using State.parse_cases hp
    have hwidths := h.widths_agree (by simp [hs]) (by simp [hs]) (by simp [hs])
    have hpacked : (s.setMode v).packedTo s.order (packedBytes s.w) := h.first_packed (.inl hs)
    constructor <;> simp [Stage.inBody, hwidths, hpacked]

theorem EngineInv.codeStep {s t : State} (h : EngineInv s) (hst : CodeStep s t) : EngineInv t := by
  cases hst with
  | advance hadv =>
    have hb : s.status = .busy := h.regs.busy_iff.mpr hadv.stages.1
    exact ⟨h.regs.decodesOn hb hadv.decodesOn (hadv.mode_legal h.regs.mode_legal), h.planes.advance hadv⟩
  | mismatch v => exact EngineInv.abort (s := { s with width2 := v }) h.regs.mode_legal (by simp)
  | invalidRun => exact EngineInv.abort (s := { s with k := 16 }) h.regs.mode_legal (by simp)
  | start _ => exact .start s
  | startIgnored _ => exact h

theorem MemInv.codeStep {s t : State} (h : MemInv s) (hst : CodeStep s t) : MemInv t := by
  cases hst with
  | advance hadv =>
    exact h.of_same (hadv.cells h.cells) hadv.decodesOn.inMem hadv.outMem hadv.decodesOn.inLen
  | mismatch v => exact MemInv.abort (s := { s with width2 := v }) { h with } _
  | invalidRun => exact MemInv.abort (s := { s with k := 16 }) { h with } _
  | start _ => exact { h with }
  | startIgnored _ => exact h

/-! ### Stages -/

theorem WorkStep.decodesOn_or_finish {s t : State} (h : WorkStep s t) :
    DecodesOn s t ∨ (s.stage = .finish ∧ t = s.finishDecode) := by
  cases h with
  | packFirst _ | packSecond _ =>
    left
    obtain ⟨_, _, _, hu⟩ := (OnlyPacks.packPlane s s.slot).frame.exists_fields
    rw [hu]
    exact ⟨⟨rfl, rfl, rfl, rfl, rfl⟩, rfl, rfl, rfl, by simp⟩
  | merge u hu _ =>
    left
    obtain ⟨_, _, _, rfl⟩ := (OnlyPacks.merge hu).frame.exists_fields
    exact ⟨⟨rfl, rfl, rfl, rfl, rfl⟩, rfl, rfl, rfl, by simp⟩
  | output _ =>
    left
    rw [(OnlyOut.output s).frame]
    exact ⟨⟨rfl, rfl, rfl, rfl, rfl⟩, rfl, rfl, rfl, by simp⟩
  | finish hs => exact .inr ⟨hs, rfl⟩

/-- No stage's work writes HDR. -/
theorem WorkStep.hdr {s t : State} (h : WorkStep s t) :
    t.mode = s.mode ∧ t.order = s.order ∧ t.width1 = s.width1 ∧ t.width2 = s.width2 := by
  cases h with
  | packFirst _ | packSecond _ =>
    rw [(OnlyPacks.packPlane s s.slot).frame]
    exact ⟨rfl, rfl, rfl, rfl⟩
  | merge u hu _ =>
    rw [(OnlyPacks.merge hu).frame]
    exact ⟨rfl, rfl, rfl, rfl⟩
  | output _ =>
    rw [(OnlyOut.output s).frame]
    exact ⟨rfl, rfl, rfl, rfl⟩
  | finish _ => exact ⟨rfl, rfl, rfl, rfl⟩

/-- After a step that packs or merges, the stage is one that no longer fills a plane. -/
theorem PlaneInv.of_packed {s u : State} {g : Stage} (hu : OnlyPacks s u)
    (hg : g = .mode ∨ g = .merge ∨ g = .output) (hwidths : s.width1 = s.width2)
    (hfirst : u.packedTo s.order (packedBytes s.w))
    (hsecond : g ≠ .mode → u.packedTo (!s.order) (packedBytes s.w)) : PlaneInv { u with stage := g } := by
  have hbody : ¬ g.inBody := by rcases hg with rfl | rfl | rfl <;> simp [Stage.inBody]
  have hplaneA (p : PlanePhase) : g ≠ .planeA p := by rcases hg with rfl | rfl | rfl <;> simp
  have hplaneB (p : PlanePhase) : g ≠ .planeB p := by rcases hg with rfl | rfl | rfl <;> simp
  obtain ⟨_, _, _, rfl⟩ := hu.frame.exists_fields
  exact {
    widths_agree := fun _ _ _ => hwidths
    slot_first := fun p h => absurd h (hplaneA p)
    slot_second := fun p h => absurd h (hplaneB p)
    cnt_le := fun h => absurd h hbody
    raw_written := fun h => absurd h hbody
    first_packed := fun _ => hfirst
    second_packed := fun h => hsecond (by rintro rfl; simp at h) }

/-- A plane is packed whole before the stage after it, and no merge unwrites one (R23). -/
theorem PlaneInv.work {s t : State} (h : PlaneInv s) (hst : WorkStep s t) : PlaneInv t := by
  cases hst with
  | packFirst hs =>
    have hpacked := s.packedTo_packPlane s.slot
    rw [h.slot_first _ hs] at hpacked ⊢
    exact .of_packed (.packPlane ..) (by simp) (h.widths_agree (by simp [hs]) (by simp [hs]) (by simp [hs]))
      hpacked (absurd rfl)
  | packSecond hs =>
    have hpacked := s.packedTo_packPlane s.slot
    rw [h.slot_second _ hs] at hpacked ⊢
    exact .of_packed (.packPlane ..) (by simp) (h.widths_agree (by simp [hs]) (by simp [hs]) (by simp [hs]))
      ((OnlyPacks.packPlane ..).written _ _ (h.first_packed (by simp [hs]))) (fun _ => hpacked)
  | merge u hu hs =>
    have honly := OnlyPacks.merge hu
    exact .of_packed honly (by simp) (h.widths_agree (by simp [hs]) (by simp [hs]) (by simp [hs]))
      (honly.written _ _ (h.first_packed (by simp [hs]))) (fun _ => honly.written _ _ (h.second_packed (.inl hs)))
  | output hs =>
    have hwidths := h.widths_agree (by simp [hs]) (by simp [hs]) (by simp [hs])
    rw [(OnlyOut.output s).frame]
    constructor <;> simp [Stage.inBody, hwidths]
  | finish hs => exact .of_unopened (.inl rfl)

theorem EngineInv.work {s t : State} (h : EngineInv s) (hb : s.status = .busy) (hst : WorkStep s t) :
    EngineInv t := by
  rcases hst.decodesOn_or_finish with hon | ⟨_, rfl⟩
  · exact ⟨h.regs.decodesOn hb hon (hst.hdr.1 ▸ h.regs.mode_legal), h.planes.work hst⟩
  · exact .finishDecode h.regs.mode_legal

theorem MemInv.work {s t : State} (h : MemInv s) (hst : WorkStep s t) : MemInv t := by
  cases hst with
  | packFirst _ | packSecond _ =>
    have honly := OnlyPacks.packPlane s s.slot
    have hcells := honly.cells h.cells
    refine h.of_same hcells ?_ ?_ ?_ <;> rw [honly.frame]
  | merge u hu _ =>
    have honly := OnlyPacks.merge hu
    have hcells := honly.cells h.cells
    refine h.of_same hcells ?_ ?_ ?_ <;> rw [honly.frame]
  | output _ =>
    have honly := OnlyOut.output s
    have hcells := honly.cells h.cells
    have hin : s.interleave.transpose.inMem = s.inMem := by rw [honly.frame]
    have hlen : s.interleave.transpose.inLen = s.inLen := by rw [honly.frame]
    exact {
      cells := hcells
      inMem_range := hin ▸ h.inMem_range
      outMem_range := fun c hc => (honly.listed c hc).elim (Nat.lt_of_lt_of_le · s.outBytes_le) (h.outMem_range c)
      inLen_le := hlen ▸ h.inLen_le }
  | finish _ =>
    have hcells : CellsWf s.forget := forget_wf h.cells
    exact h.of_same hcells rfl rfl rfl

/-! ### Every step -/

theorem MemInv.step {s t : State} (h : MemInv s) (hst : StepBy s t) : MemInv t := by
  cases hst with
  | code n _ hcode => exact (h.pop.consume n).codeStep hcode
  | endOfStream n _ => exact (h.pop.consume n).abort _
  | work _ hwork => exact h.pop.work hwork
  | wait => exact h.pop
  | command hcode => exact h.pop.codeStep hcode
  | access a hwf => exact h.pop.hostEffect hwf
  | reset _ => exact h.pop.resetInput

/-- This part is kept whatever the memories hold: the decode statements use it from states that meet no invariant. -/
theorem EngineInv.step {s t : State} (h : EngineInv s) (hst : StepBy s t) : EngineInv t := by
  cases hst with
  | code n hb hcode => exact (h.pop.consume hb n).codeStep hcode
  | endOfStream n hb => exact .abort (h.pop.consume hb n).regs.mode_legal (by simp)
  | work hb hwork => exact h.pop.work hb hwork
  | wait => exact h.pop
  | command hcode => exact h.pop.codeStep hcode
  | access a _ => exact h.pop.hostEffect a
  | reset _ => exact .resetInput s.pop

/-- Settles O44: each of the two parts of the invariant is kept by every step. -/
theorem stepKeepsTheInvariant : Obligations.StepKeepsTheInvariant := by
  intro s t hs hstep
  obtain ⟨hmem, hengine⟩ := (inv_iff s).mp hs
  have hst := stepBy_of_step hstep
  exact (inv_iff t).mpr ⟨hmem.step hst, hengine.step hst⟩

/-- Settles O43: at reset nothing is stored and no plane is open. -/
theorem resetMeetsTheInvariant : Obligations.ResetMeetsTheInvariant := by
  refine (inv_iff _).mpr ⟨⟨reset_cells_wf, ?_, ?_, Nat.zero_le _⟩, ?_, .of_unopened (.inl rfl)⟩
  · simp [State.reset]
  · simp [State.reset]
  · constructor <;> simp [State.reset]

end Sys2Proof.Machine
end

section
/-! SUPPORT. The statements on the cursor (O46), the START command (O13), and the host's registers (O49 to O52, O57). -/

namespace Sys2Proof.Machine

/-! ### The cursor -/

/-- Every code word of a BUSY engine leaves the cursor and the stream it was handed. -/
theorem CodeStep.sameStream {s t : State} (h : CodeStep s t) (hb : s.status = .busy) : SameStream s t := by
  cases h with
  | advance hadv => exact hadv.decodesOn.toSameStream
  | mismatch v | invalidRun => exact ⟨rfl, rfl, rfl, rfl, rfl⟩
  | start hnb => exact absurd hb hnb
  | startIgnored _ => exact .refl s

theorem WorkStep.sameStream {s t : State} (h : WorkStep s t) : SameStream s t := by
  rcases h.decodesOn_or_finish with hon | ⟨_, rfl⟩
  · exact hon.toSameStream
  · exact ⟨rfl, rfl, rfl, rfl, rfl⟩

theorem SameStream.sameButHost {s t : State} (h : SameButHost s t) : SameStream s t := by
  rw [h]; exact ⟨rfl, rfl, rfl, rfl, rfl⟩

/-- While BUSY a host access changes nothing but the host's own record (R49). -/
theorem State.hostEffect_busy {s : State} (hb : s.status = .busy) (a : Access) : SameButHost s (s.hostEffect a) := by
  rcases s.hostEffect_cases a with h | ⟨hnb, _⟩ | ⟨hnb, _⟩
  · exact h
  · exact absurd hb hnb
  · exact absurd hb hnb

/-- From a BUSY state every step but a reset only consumes bits of the stream. -/
theorem StepBy.consumes {s t : State} (h : StepBy s t) (hb : s.status = .busy)
    (hreset : s.pending.head? ≠ some .reset) : ∃ n, SameStream (s.pop.consume n) t := by
  have hbusy (n : Nat) : (s.pop.consume n).status = .busy := by rw [State.consume_frame]; exact hb
  cases h with
  | code n _ hcode => exact ⟨n, hcode.sameStream (hbusy n)⟩
  | endOfStream n _ => exact ⟨n, .abort ..⟩
  | work _ hwork => exact ⟨0, hwork.sameStream⟩
  | wait => exact ⟨0, .refl _⟩
  | command hcode => exact ⟨0, hcode.sameStream hb⟩
  | access a _ => exact ⟨0, .sameButHost (State.hostEffect_busy (s := s.pop) hb a)⟩
  | reset hr => exact absurd hr hreset

theorem SameStream.bitPos {s t : State} (h : SameStream s t) : t.bitPos = s.bitPos := by
  simp only [State.bitPos, h.byteIndex, h.bitIndex]

/-- Settles O46: a BUSY engine moves its cursor by consuming bits, and no other step moves it. -/
theorem cursorOnlyAdvances : Obligations.CursorOnlyAdvances := by
  intro s t hb hcur hreset hstep
  obtain ⟨n, hsame⟩ := (stepBy_of_step hstep).consumes hb hreset
  have hlen : t.inLen = s.inLen := by rw [hsame.inLen, State.consume_frame]; rfl
  obtain ⟨hge, hle⟩ := s.pop.bitPos_consume n
  rw [← hsame.bitPos] at hge hle
  have hend : t.bitPos ≤ t.streamBits := by
    have hs : t.bitPos ≤ s.streamBits := hle ((State.cursorInStream_iff s).mp hcur)
    simpa only [State.streamBits, hlen] using hs
  have hbyte : t.byteIndex.toNat ≤ t.inLen.toNat := by
    unfold State.bitPos State.streamBits at hend
    omega
  exact ⟨hge, hend, hbyte, hlen⟩

/-! ### The START command -/

/-- Settles O13: the decoder reads START from bit 0 of the CTRL word, whatever the other bits. -/
theorem stepRunsTheStartCommand : Obligations.StepRunsTheStartCommand := by
  intro s v rest hpending hstart
  unfold step
  rw [State.fetch_access_pop hpending, State.fetchAccess_ctrl_start _ hstart]

/-! ### The registers the host reads -/

/-- A read of a register of the window has that read's effect. -/
theorem step_regRead {s : State} {off : Nat} {rest : List Event} (h : s.pending = .access (.regRead 4 off) :: rest)
    (hwf : (Access.regRead 4 off).wf = true) : step s = .next (State.regRead { s with pending := rest } off) := by
  rw [step_of_access h (by simp) hwf, State.pop_eq_of_pending h]
  rfl

/-- STATE stands in bits 1:0 of STATUS, ERR in bits 3:2, and 0 above (R29). -/
theorem State.statusWord_fields (s : State) :
    s.statusWord.extractLsb' 0 2 = s.status.code ∧ s.statusWord.extractLsb' 2 2 = s.err.code
    ∧ s.statusWord.extractLsb' 4 28 = 0 := by
  unfold State.statusWord
  refine ⟨BitVec.extractLsb'_append_eq_right, ?_, ?_⟩
  all_goals
    ext i hi
    simp only [BitVec.getElem_extractLsb', BitVec.getLsbD_append]
    grind

/-- The fields of HDR, and 0 above them (R32). -/
theorem State.hdrWord_fields (s : State) :
    s.hdrWord.extractLsb' 0 4 = s.width1 ∧ s.hdrWord.extractLsb' 4 4 = s.width2
    ∧ s.hdrWord.getLsbD 8 = s.order ∧ s.hdrWord.extractLsb' 9 2 = s.mode ∧ s.hdrWord.extractLsb' 11 21 = 0 := by
  unfold State.hdrWord
  refine ⟨BitVec.extractLsb'_append_eq_right, ?_, ?_, ?_, ?_⟩
  case refine_2 => simp only [BitVec.getLsbD_append]; simp
  all_goals
    ext i hi
    simp only [BitVec.getElem_extractLsb', BitVec.getLsbD_append]
    grind

/-- Settles O49: the four registers read alike in every state. -/
theorem alwaysReadableRegisters : Obligations.AlwaysReadableRegisters := by
  intro s off rest hpending
  refine ⟨?_, ?_, ?_⟩
  · rintro (rfl | rfl)
    · exact step_regRead hpending rfl
    · exact step_regRead hpending rfl
  · rintro rfl
    exact step_regRead hpending rfl
  · rintro rfl
    obtain ⟨hstate, herr, hzero⟩ := s.statusWord_fields
    refine ⟨s.statusWord, step_regRead hpending rfl, ?_⟩
    rw [hstate, herr, hzero]
    cases s.status <;> cases s.err <;> simp [RunState.code, ErrCode.code]

theorem State.seeResult_of_not_busy {s : State} (h : s.status ≠ .busy) (v : Word) : s.seeResult v = s.see v := by
  simp [State.seeResult, h]

theorem State.seeResult_of_busy {s : State} (h : s.status = .busy) (v : Word) :
    s.seeResult v = s.seeDraw (Config.busyWord s.draws) := by
  simp [State.seeResult, h]

/-- The result registers by their offset, each with its value (R31 to R33). -/
inductive ResultReg (s : State) : Nat → Word → Prop
  | outCount : ResultReg s 0x0C s.outCount
  | hdr : ResultReg s 0x10 s.hdrWord
  | curByte : ResultReg s 0x14 s.curByte
  | curBit : ResultReg s 0x18 (s.curBit.setWidth 32)

theorem step_resultRead {s : State} {off : Nat} {rest : List Event} {v : Word}
    (h : s.pending = .access (.regRead 4 off) :: rest) (hv : ResultReg s off v) :
    step s = .next (State.seeResult { s with pending := rest } v) := by
  cases hv with
  | outCount | hdr | curByte | curBit => exact step_regRead h rfl

/-- Outside BUSY a result register reads its value. -/
theorem step_resultRead_of_not_busy {s : State} {off : Nat} {rest : List Event} {v : Word}
    (h : s.pending = .access (.regRead 4 off) :: rest) (hnb : s.status ≠ .busy) (hv : ResultReg s off v) :
    step s = .next { s with pending := rest, seen := v :: s.seen } := by
  rw [step_resultRead h hv]
  simp [State.seeResult, hnb, State.see]

/-- While BUSY a result register reads as a free value (R34). -/
theorem step_resultRead_of_busy {s : State} {off : Nat} {rest : List Event} {v : Word}
    (h : s.pending = .access (.regRead 4 off) :: rest) (hb : s.status = .busy) (hv : ResultReg s off v) :
    step s = .next { s with pending := rest, seen := Config.busyWord s.draws :: s.seen, draws := s.draws + 1 } := by
  rw [step_resultRead h hv]
  simp [State.seeResult, hb, State.seeDraw]

/-- Settles O50: outside BUSY a result register reads its own value, HDR field by field. -/
theorem resultRegistersReadWhenNotBusy : Obligations.ResultRegistersReadWhenNotBusy := by
  intro s off rest hpending hnb
  refine ⟨?_, ?_, ?_, ?_⟩ <;> rintro rfl
  · exact step_resultRead_of_not_busy hpending hnb .outCount
  · exact step_resultRead_of_not_busy hpending hnb .curByte
  · rw [BitVec.ofNat_toNat]
    exact step_resultRead_of_not_busy hpending hnb .curBit
  · exact ⟨s.hdrWord, step_resultRead_of_not_busy hpending hnb .hdr, s.hdrWord_fields⟩

/-- Settles O51: while BUSY a result register and OUT give the host the next free value. -/
theorem busyResultReadsAreUnspecified : Obligations.BusyResultReadsAreUnspecified := by
  intro s rest hb
  constructor
  · rintro off (rfl | rfl | rfl | rfl) hpending
    · exact step_resultRead_of_busy hpending hb .outCount
    · exact step_resultRead_of_busy hpending hb .hdr
    · exact step_resultRead_of_busy hpending hb .curByte
    · exact step_resultRead_of_busy hpending hb .curBit
  · intro a ha hpending
    have hwf : (Access.outRead 1 a).wf = true := by simp [Access.wf, outAccessOk, Config.outMemBytes, ha]
    rw [step_of_access hpending (by simp) hwf, State.pop_eq_of_pending hpending]
    simp [State.hostEffect, State.outRead, hb, State.seeDraw]

/-! ### The registers the host writes -/

/-- A register write that is not START is an access, and does what `regWrite` says (R28, R45). -/
theorem step_regWrite {s : State} {off : Nat} {v : Word} {rest : List Event}
    (h : s.pending = .access (.regWrite 4 off v) :: rest) (hal : off % 4 = 0) (hwin : off < 32)
    (hstart : ¬ (off = 0x00 ∧ v.getLsbD 0 = true)) :
    step s = .next (State.regWrite { s with pending := rest } off v) := by
  have hwf : (Access.regWrite 4 off v).wf = true := by simp [Access.wf, regAccessOk, hal, hwin]
  have hfetch : s.pop.fetchAccess (.regWrite 4 off v) = .access (.regWrite 4 off v) s.pop := by
    by_cases hoff : off = 0
    · subst hoff
      exact State.fetchAccess_ctrl_clear _ (by simpa using hstart)
    · exact State.fetchAccess_of_not_ctrl _ (by simp [hoff])
  rw [← State.pop_eq_of_pending h]
  simp [step, State.fetch_access_pop h, hfetch, State.hostAccess, hwf, State.hostEffect]

/-- Settles O52: `regWrite` stores the clamped IN_LEN and nothing else. -/
theorem registerWritesOutsideBusy : Obligations.RegisterWritesOutsideBusy := by
  intro s off v rest hnb hpending hal hwin
  constructor
  · rintro rfl
    refine ⟨{ s with pending := rest, inLen := BitVec.ofNat 32 (min v.toNat Config.inMemBytes) }, ?_, rfl,
      toNat_clampInLen v⟩
    rw [step_regWrite hpending hal hwin (by simp)]
    simp [State.regWrite, hnb]
  · intro hoff hstart
    rw [step_regWrite hpending hal hwin hstart]
    simp [State.regWrite, hoff]

/-- Settles O57, by evaluating `State.reset`. -/
theorem resetValues : Obligations.ResetValues := by
  unfold Obligations.ResetValues
  decide

end Sys2Proof.Machine
end

section
/-! SUPPORT. The statement on a decode that ends in DONE (O38): from START on, whatever the machine held before and the
host does meanwhile, the engine's part of the invariant holds and OUT is written by the OUTPUT stage alone. -/

namespace Sys2Proof.Machine

/-- What a decode started at `s` has left of the stream and of OUT when it stands at `t`. -/
structure OutputFrom (s t : State) : Prop where
  inMem : t.inMem = s.inMem
  inLen : t.inLen = s.inLen
  outEra : t.outEra = s.outEra
  /-- before FINISH nothing of OUT has been written -/
  unwritten : t.status = .busy → t.stage ≠ .finish → t.outMem = s.outMem
  /-- no byte beyond the output is ever written (R39) -/
  beyond : ∀ a, outBytes t.w ≤ a → t.outByte a = s.outByte a
  /-- FINISH is reached with agreeing widths only (R113) -/
  widths_done : t.status = .done → t.width1 = t.width2

theorem State.outByte_congr {s t : State} (hmem : t.outMem = s.outMem) (hera : t.outEra = s.outEra) (a : Nat) :
    t.outByte a = s.outByte a := by
  simp only [State.outByte, hmem, hera]

theorem OutputFrom.start (s : State) : OutputFrom s s.pop.start where
  inMem := rfl
  inLen := rfl
  outEra := rfl
  unwritten _ _ := rfl
  beyond _ _ := rfl
  widths_done h := by simp at h

section
variable {s u t : State} (h : OutputFrom s u)
include h

theorem OutputFrom.pop : OutputFrom s u.pop := { h with }

theorem OutputFrom.consume (n : Nat) : OutputFrom s (u.consume n) := by
  rw [State.consume_frame]; exact { h with }

theorem OutputFrom.sameButHost (hut : SameButHost u t) : OutputFrom s t := by
  rw [hut]; exact { h with }

/-- A step of the decode that does not write OUT, before FINISH. -/
theorem OutputFrom.decodesOn (hb : u.status = .busy) (hon : DecodesOn u t) (hstage : u.stage ≠ .finish)
    (hout : t.outMem = u.outMem) : OutputFrom s t := by
  have hmem : t.outMem = s.outMem := hout.trans (h.unwritten hb hstage)
  have hera : t.outEra = s.outEra := hon.outEra.trans h.outEra
  have hbt : t.status = .busy := hon.status.trans hb
  exact {
    inMem := hon.inMem.trans h.inMem
    inLen := hon.inLen.trans h.inLen
    outEra := hera
    unwritten := fun _ _ => hmem
    beyond := fun a _ => State.outByte_congr hmem hera a
    widths_done := fun hd => by simp [hbt] at hd }

theorem OutputFrom.codeStep (hb : u.status = .busy) (hst : CodeStep u t) (ht : t.status = .busy ∨ t.status = .done) :
    OutputFrom s t := by
  cases hst with
  | advance hadv => exact h.decodesOn hb hadv.decodesOn hadv.stages.2.1 hadv.outMem
  | mismatch v | invalidRun => simp at ht
  | start hnb => exact absurd hb hnb
  | startIgnored _ => exact h

theorem OutputFrom.work (hplanes : PlaneInv u) (hb : u.status = .busy) (hst : WorkStep u t) : OutputFrom s t := by
  have hon := hst.decodesOn_or_finish
  cases hst with
  | packFirst hs | packSecond hs =>
    have hout : (u.packPlane u.slot).outMem = u.outMem := by rw [(OnlyPacks.packPlane u u.slot).frame]
    exact h.decodesOn hb (hon.resolve_right (by simp [hs])) (by simp [hs]) hout
  | merge v hv hs =>
    have hout : v.outMem = u.outMem := by rw [(OnlyPacks.merge hv).frame]
    exact h.decodesOn hb (hon.resolve_right (by simp [hs])) (by simp [hs]) hout
  | output hs =>
    have hbeyond := (OnlyOut.output u).beyond
    obtain ⟨out, hframe⟩ : ∃ out, u.interleave.transpose = { u with outMem := out } :=
      ⟨_, (OnlyOut.output u).frame⟩
    rw [hframe] at hbeyond ⊢
    exact { h with
      unwritten := fun _ hfin => absurd rfl hfin
      beyond := fun a ha => (hbeyond a ha).trans (h.beyond a ha) }
  | finish hs =>
    have hwidths := hplanes.widths_agree (by simp [hs]) (by simp [hs]) (by simp [hs])
    exact { h with unwritten := fun hbt => by simp at hbt, widths_done := fun _ => hwidths }

theorem OutputFrom.step (hengine : EngineInv u) (hb : u.status = .busy) (hst : StepBy u t)
    (ht : t.status = .busy ∨ t.status = .done) : OutputFrom s t := by
  cases hst with
  | code n _ hcode => exact (h.pop.consume n).codeStep (by rw [State.consume_frame]; exact hb) hcode ht
  | endOfStream n _ => simp at ht
  | work _ hwork => exact h.pop.work hengine.pop.planes hb hwork
  | wait => exact h.pop
  | command hcode => exact h.pop.codeStep hb hcode ht
  | access a _ => exact h.pop.sameButHost (State.hostEffect_busy (s := u.pop) hb a)
  | reset _ => simp at ht

end

/-- What a decode keeps from START to its end. -/
def DecodeInv (s t : State) : Prop :=
  EngineInv t ∧ (t.status = .busy ∨ t.status = .done → OutputFrom s t)

theorem step_of_aboutToStart {s : State} (h : s.aboutToStart) : step s = .next s.pop.start := by
  obtain ⟨hnb, v, rest, hpending, hstart⟩ := h
  rw [stepRunsTheStartCommand s v rest hpending hstart]
  simp [exec, execCmdStart, hnb]

theorem decodeInv_of_decodeReaches {s t : State} {n : Nat} (hs : s.aboutToStart) (h : s.decodeReaches n t) :
    DecodeInv s t := by
  obtain ⟨u, hu, hrun⟩ := h
  rw [step_of_aboutToStart hs] at hu
  cases hu
  refine whileBusy_keeps (P := DecodeInv s) (fun u v hinv hb hstep => ?_) ⟨.start _, fun _ => .start s⟩ hrun
  obtain ⟨hengine, hout⟩ := hinv
  have hst := stepBy_of_step hstep
  exact ⟨hengine.step hst, (hout (.inl hb)).step hengine hb hst⟩

/-- Settles O38: at DONE the invariant of the decode gives OUT_COUNT, the widths, the mode, ERR and the rest of OUT. -/
theorem successfulDecodesCountTheirOutput : Obligations.SuccessfulDecodesCountTheirOutput := by
  intro s t n hs hrun hdone
  obtain ⟨hengine, hout⟩ := decodeInv_of_decodeReaches hs hrun
  have hfrom := hout (.inr hdone)
  have hcount := hengine.regs.outCount_done hdone
  have herr : t.err = .none := hengine.regs.err_none (by simp [hdone])
  exact ⟨hcount.trans (Nat.mul_comm ..), hfrom.widths_done hdone, hengine.regs.mode_legal, herr,
    fun a ha => hfrom.beyond a (hcount ▸ ha), hfrom.inMem, hfrom.inLen⟩

end Sys2Proof.Machine
end

section
/-! SUPPORT. The statements on the memories: a decode that ends in ERROR (O37), and the host's accesses to IN and OUT
(O47, O48, O53 to O55). -/

namespace Sys2Proof.Machine

/-! ### What writes OUT -/

theorem CodeStep.outMem {s t : State} (h : CodeStep s t) : t.outMem = s.outMem := by
  cases h with
  | advance hadv => exact hadv.outMem
  | mismatch _ | invalidRun | start _ | startIgnored _ => rfl

/-- Of the stages only OUTPUT writes OUT (R119). -/
theorem WorkStep.outMem {s t : State} (h : WorkStep s t) (hstage : s.stage ≠ .output) : t.outMem = s.outMem := by
  cases h with
  | packFirst _ | packSecond _ => rw [(OnlyPacks.packPlane s s.slot).frame]
  | merge u hu _ => rw [(OnlyPacks.merge hu).frame]
  | output hs => exact absurd hs hstage
  | finish _ => rfl

theorem StepBy.outMem {s t : State} (h : StepBy s t) (hb : s.status = .busy) (hstage : s.stage ≠ .output)
    (hreset : s.pending.head? ≠ some .reset) : t.outMem = s.outMem := by
  have hconsume (n : Nat) : (s.pop.consume n).outMem = s.outMem := by rw [State.consume_frame]; rfl
  cases h with
  | code n _ hcode => exact hcode.outMem.trans (hconsume n)
  | endOfStream n _ => exact hconsume n
  | work _ hwork => exact hwork.outMem hstage
  | wait => rfl
  | command hcode => exact hcode.outMem
  | access a _ => rw [State.hostEffect_busy (s := s.pop) hb a]; rfl
  | reset hr => exact absurd hr hreset

/-- While BUSY and before OUTPUT, a step that is no reset leaves OUT, IN and IN_LEN. -/
theorem step_keeps_memories {s t : State} (hb : s.status = .busy) (hstage : s.stage ≠ .output)
    (hreset : s.pending.head? ≠ some .reset) (h : step s = .next t) :
    t.outMem = s.outMem ∧ t.outEra = s.outEra ∧ t.inMem = s.inMem ∧ t.inLen = s.inLen := by
  have hst := stepBy_of_step h
  obtain ⟨n, hsame⟩ := hst.consumes hb hreset
  have hout := hst.outMem hb hstage hreset
  rw [State.consume_frame] at hsame
  exact ⟨hout, hsame.outEra, hsame.inMem, hsame.inLen⟩

/-! ### Where errors are raised -/

/-- No code word is read at OUTPUT or at FINISH (R112). -/
theorem State.stage_of_parse {s : State} {p : ParseState} (h : s.parse = some p) :
    s.stage ≠ .output ∧ s.stage ≠ .finish := by
  rcases State.parse_cases h with ⟨_, hs⟩ | ⟨_, hs⟩ | ⟨_, hs⟩ | ⟨_, hs | hs⟩ | ⟨_, hs⟩ | ⟨_, hs | hs, _⟩ <;> simp [hs]

/-- A stage's work raises no error. -/
theorem WorkStep.status_ne_error {s t : State} (h : WorkStep s t) (hs : s.status ≠ .error) : t.status ≠ .error := by
  rcases h.decodesOn_or_finish with hon | ⟨_, rfl⟩
  · rw [hon.status]; exact hs
  · simp

/-- A START command is ignored while BUSY (R111). -/
theorem exec_cmdStart_of_busy {s : State} (hb : s.status = .busy) (x : BitVec 31) : exec (.cmdStart x) s = .next s := by
  simp [exec, execCmdStart, hb]

/-- A BUSY machine takes an error only where a code word is read: no later stage raises one (R118 to R120). -/
theorem parse_of_step_error {s t : State} (hb : s.status = .busy) (h : step s = .next t) (ht : t.status = .error) :
    ∃ p, s.parse = some p := by
  have hbusy : s.status ≠ .error := by simp [hb]
  unfold step at h
  rcases s.fetch_cases with ⟨_, hf⟩ | ⟨a, hf⟩ | ⟨_, hf⟩
  · rcases s.pop.fetchEngine_cases with ⟨hnb, _⟩ | ⟨_, _, he⟩ | ⟨p, hp, _⟩
    · exact absurd hb hnb
    · rw [hf, he] at h
      exact absurd ht ((workStep_of_engineWork h).status_ne_error hbusy)
    · exact ⟨p, hp⟩
  · rcases s.pop.fetchAccess_cases a with ha | ⟨_, i, _, _, _, ha⟩
    · rw [hf, ha] at h
      obtain ⟨_, rfl⟩ := (State.hostAccess_next_iff ..).mp h
      rw [State.hostEffect_busy (s := s.pop) hb a] at ht
      exact absurd ht hbusy
    · rw [hf, ha] at h
      change exec i s.pop = .next t at h
      rcases exec_next_place h with hp | ⟨x, rfl⟩
      · exact ⟨_, hp⟩
      · rw [exec_cmdStart_of_busy (s := s.pop) hb] at h
        cases h
        exact absurd ht hbusy
  · rw [hf] at h; cases h; simp at ht

/-! ### A decode that ends in ERROR -/

/-- The end of a decode that has left the START state is one step from a BUSY state of it. -/
theorem decodeReaches_last {s t : State} {n : Nat} (h : s.decodeReaches (n + 1) t) :
    ∃ u, s.decodeReaches n u ∧ u.status = .busy ∧ step u = .next t := by
  obtain ⟨v, hv, hrun⟩ := h
  obtain ⟨u, hvu, hb, _, hstep, rfl⟩ := whileBusy_split hrun
  exact ⟨u, ⟨v, hv, hvu⟩, hb, hstep⟩

theorem step_of_reset {s : State} (h : s.pending.head? = some .reset) : step s = .next s.pop.resetInput := by
  obtain ⟨rest, hpending⟩ := List.head?_eq_some_iff.mp h
  rw [State.pop_eq_of_pending hpending, step, State.fetch_reset hpending]

/-- The step of a decode that raises an error is taken before OUTPUT, so it finds OUT as START found it. -/
theorem decode_error_keeps_memories {s u t : State} (hinv : DecodeInv s u) (hb : u.status = .busy)
    (hstep : step u = .next t) (herror : t.status = .error) :
    t.outMem = s.outMem ∧ t.outEra = s.outEra ∧ t.inMem = s.inMem ∧ t.inLen = s.inLen := by
  have hfrom := hinv.2 (.inl hb)
  obtain ⟨p, hp⟩ := parse_of_step_error hb hstep herror
  obtain ⟨hout, hfin⟩ := State.stage_of_parse hp
  have hreset : u.pending.head? ≠ some .reset := fun hr => by
    rw [step_of_reset hr] at hstep
    cases hstep
    simp at herror
  obtain ⟨hmem, hera, hin, hlen⟩ := step_keeps_memories hb hout hreset hstep
  exact ⟨hmem.trans (hfrom.unwritten hb hfin), hera.trans hfrom.outEra, hin.trans hfrom.inMem,
    hlen.trans hfrom.inLen⟩

/-- Settles O37: an error is raised where a code word is read, and no step before OUTPUT writes OUT. -/
theorem failedDecodesLeaveOutAlone : Obligations.FailedDecodesLeaveOutAlone := by
  refine ⟨fun s t hb hstage hreset hstep => step_keeps_memories hb hstage hreset hstep, ?_⟩
  intro s t n hs hrun herror
  obtain ⟨hengine, _⟩ := decodeInv_of_decodeReaches hs hrun
  have herr : t.err ≠ .none := hengine.regs.err_iff.mpr herror
  have hcount : t.outCount = 0 := hengine.regs.outCount_zero (by simp [herror])
  cases n with
  | zero =>
    obtain ⟨_, hu, rfl⟩ := hrun
    rw [step_of_aboutToStart hs] at hu
    cases hu
    simp at herror
  | succ n =>
    obtain ⟨u, hu, hb, hstep⟩ := decodeReaches_last hrun
    obtain ⟨hout, hera, hin, hlen⟩ :=
      decode_error_keeps_memories (decodeInv_of_decodeReaches hs hu) hb hstep herror
    exact ⟨hout, hera, hcount, herr, hin, hlen⟩

/-! ### Host accesses -/

/-- The state after the host has read one value and nothing else has happened (R48). -/
def Sees (s t : State) : Prop := ∃ v d, t = { s with seen := v :: s.seen, draws := d }

theorem Sees.see (s : State) (v : Word) : Sees s (s.see v) := ⟨v, s.draws, rfl⟩

theorem Sees.seeDraw (s : State) (v : Word) : Sees s (s.seeDraw v) := ⟨v, s.draws + 1, rfl⟩

theorem Sees.ite {c : Prop} [Decidable c] {s t u : State} (ht : Sees s t) (hu : Sees s u) :
    Sees s (if c then t else u) := by
  split
  · exact ht
  · exact hu

theorem Sees.seeResult (s : State) (v : Word) : Sees s (s.seeResult v) := .ite (.seeDraw ..) (.see ..)

/-- Each register of the window shows one value, a result register an unspecified one while BUSY (R34). -/
theorem Sees.regRead (s : State) (off : Nat) : Sees s (s.regRead off) :=
  .ite (.see ..) <| .ite (.see ..) <| .ite (.seeResult ..) <| .ite (.seeResult ..) <| .ite (.seeResult ..) <|
    .ite (.seeResult ..) (.see ..)

theorem Sees.outRead (s : State) (a : Nat) : Sees s (s.outRead a) := .ite (.seeDraw ..) (.see ..)

theorem Sees.hostEffect (s : State) {a : Access} (h : isRead a = true) : Sees s (s.hostEffect a) := by
  cases a with
  | regRead _ off => exact .regRead s off
  | inRead _ a => exact .see ..
  | outRead _ a => exact .outRead s a
  | regWrite _ _ _ | inWrite _ _ _ | outWrite _ _ _ => simp [isRead] at h

theorem Sees.sameButHost {s t : State} (h : Sees s.pop t) : SameButHost s t := by
  obtain ⟨_, _, rfl⟩ := h; rfl

theorem Sees.pending {s t : State} (h : Sees s t) : t.pending = s.pending := by
  obtain ⟨_, _, rfl⟩ := h; rfl

/-- While BUSY a write of the host is ignored (R49). -/
theorem State.hostEffect_write_of_busy {s : State} (hb : s.status = .busy) {a : Access} (h : isRead a = false) :
    s.hostEffect a = s := by
  cases a with
  | regRead _ _ | inRead _ _ | outRead _ _ => simp [isRead] at h
  | regWrite _ _ _ => simp [State.hostEffect, State.regWrite, hb]
  | inWrite _ _ _ => simp [State.hostEffect, hb]
  | outWrite _ _ _ => rfl

/-- An access of the interface that is no START command has its effect. -/
theorem step_of_access_not_start {s : State} {a : Access} {rest : List Event} (h : s.pending = .access a :: rest)
    (hstart : ∀ v, a = .regWrite 4 0 v → v.getLsbD 0 = false) (hwf : a.wf = true) :
    step s = .next (s.pop.hostEffect a) := by
  by_cases hctrl : ∃ v, a = .regWrite 4 0 v
  · obtain ⟨v, rfl⟩ := hctrl
    simp [step, State.fetch_access_pop h, State.fetchAccess_ctrl_clear _ (hstart v rfl), State.hostAccess, hwf]
  · exact step_of_access h (by simpa using hctrl) hwf

theorem step_start_of_busy {s : State} {v : Word} {rest : List Event} (hb : s.status = .busy)
    (h : s.pending = .access (.regWrite 4 0 v) :: rest) (hstart : v.getLsbD 0 = true) : step s = .next s.pop := by
  rw [stepRunsTheStartCommand s v rest h hstart, exec_cmdStart_of_busy (s := s.pop) hb]

/-- While BUSY a write of the interface, START among them, takes its event and does nothing (R49). -/
theorem step_write_of_busy {s : State} {a : Access} {rest : List Event} (hb : s.status = .busy)
    (h : s.pending = .access a :: rest) (hwf : a.wf = true) (hwrite : isRead a = false) : step s = .next s.pop := by
  by_cases hstart : ∃ v, a = .regWrite 4 0 v ∧ v.getLsbD 0 = true
  · obtain ⟨v, rfl, hv⟩ := hstart
    exact step_start_of_busy hb h hv
  · rw [step_of_access_not_start h (by simpa using hstart) hwf, State.hostEffect_write_of_busy (s := s.pop) hb hwrite]

/-- A read of the interface takes its event and gives the host one value, in every state. -/
theorem step_read {s : State} {a : Access} {rest : List Event} (h : s.pending = .access a :: rest)
    (hwf : a.wf = true) (hread : isRead a = true) : ∃ t, step s = .next t ∧ Sees s.pop t :=
  ⟨_, step_of_access h (by rintro v rfl; simp [isRead] at hread) hwf, .hostEffect _ hread⟩

/-- Settles O47: a read only shows a value, a write is ignored. -/
theorem busyAccessesChangeNothing : Obligations.BusyAccessesChangeNothing := by
  intro s a rest hb hpending hwf
  have hrest : s.pop.pending = rest := by simp [hpending]
  cases hread : isRead a with
  | true =>
    obtain ⟨t, hstep, hsees⟩ := step_read hpending hwf hread
    exact ⟨t, hstep, hsees.pending.trans hrest, hsees.sameButHost⟩
  | false => exact ⟨s.pop, step_write_of_busy hb hpending hwf hread, hrest, rfl⟩

/-- Settles O48: a read's effect is one value more for the host. -/
theorem readsHaveNoSideEffect : Obligations.ReadsHaveNoSideEffect := by
  intro s a rest hpending hwf hread
  obtain ⟨t, hstep, hsees⟩ := step_read hpending hwf hread
  have hrest : t.pending = rest := hsees.pending.trans (by simp [hpending])
  have hsame := hsees.sameButHost
  obtain ⟨v, _, rfl⟩ := hsees
  exact ⟨_, v, hstep, hrest, rfl, hsame⟩

/-! ### IN and OUT -/

theorem inAccessOk_iff (bytes a : Nat) : inAccessOk bytes a = true ↔ bytes = 1 ∧ a < Config.inMemBytes := by
  simp [inAccessOk]

theorem outAccessOk_iff (bytes a : Nat) : outAccessOk bytes a = true ↔ bytes = 1 ∧ a < 3600 := by
  change _ ↔ bytes = 1 ∧ a < Config.outMemBytes
  simp [outAccessOk]

theorem regAccessOk_iff (bytes off : Nat) : regAccessOk bytes off = true ↔ bytes = 4 ∧ off % 4 = 0 ∧ off < 32 := by
  simp [regAccessOk, and_assoc]

/-- Settles O53: IN keeps a byte written outside BUSY, and shows every byte in every state. -/
theorem inputMemoryAccesses : Obligations.InputMemoryAccesses := by
  intro s a rest ha
  have hok : inAccessOk 1 a = true := (inAccessOk_iff 1 a).mpr ⟨rfl, ha⟩
  constructor
  · intro v hnb hpending
    have hstep : step s = .next (s.pop.writeIn a v) := by
      rw [step_of_access hpending (by simp) hok]
      simp [State.hostEffect, hnb]
    rw [State.pop_eq_of_pending hpending] at hstep
    exact ⟨_, hstep, rfl, fun b => State.inByte_writeIn _ a b v⟩
  · intro hpending
    rw [step_of_access hpending (by simp) hok, State.pop_eq_of_pending hpending]
    rfl

/-- Settles O54: outside BUSY a read of OUT shows its byte, and no host write has an effect on OUT. -/
theorem outputMemoryAccesses : Obligations.OutputMemoryAccesses := by
  intro s a rest ha
  have hok : outAccessOk 1 a = true := (outAccessOk_iff 1 a).mpr ⟨rfl, ha⟩
  constructor
  · intro hnb hpending
    rw [step_of_access hpending (by simp) hok, State.pop_eq_of_pending hpending]
    simp only [State.hostEffect, State.outRead, hnb, if_false]
    rfl
  · intro v hpending
    rw [step_of_access hpending (by simp) hok, State.pop_eq_of_pending hpending]
    rfl

/-! ### Accesses outside the interface -/

/-- An access outside the interface is refused: a write to CTRL that could be START is inside it. -/
theorem step_of_not_wf {s : State} {a : Access} {rest : List Event} (h : s.pending = .access a :: rest)
    (hwf : ¬ a.wf = true) : step s = .refused (refusalOf a) := by
  have hctrl (v : Word) : a ≠ .regWrite 4 0 v := by rintro rfl; exact hwf rfl
  simp [step, State.fetch_access_pop h, State.fetchAccess_of_not_ctrl _ hctrl, State.hostAccess, hwf]

/-- Settles O55: each condition is the negation of the access's check. -/
theorem accessesOutsideTheInterfaceAreRefused : Obligations.AccessesOutsideTheInterfaceAreRefused := by
  intro s rest bytes a
  refine ⟨fun v hout => ?_, fun v hout => ?_, fun v hout => ?_⟩
  · have hbad : ¬ regAccessOk bytes a = true := by rw [regAccessOk_iff]; omega
    exact ⟨fun h => step_of_not_wf h hbad, fun h => step_of_not_wf h hbad⟩
  · have hbad : ¬ inAccessOk bytes a = true := by rw [inAccessOk_iff]; omega
    exact ⟨fun h => step_of_not_wf h hbad, fun h => step_of_not_wf h hbad⟩
  · have hbad : ¬ outAccessOk bytes a = true := by rw [outAccessOk_iff]; omega
    exact ⟨fun h => step_of_not_wf h hbad, fun h => step_of_not_wf h hbad⟩

end Sys2Proof.Machine
end

section
/-! SUPPORT. The reading rules of the decoder (R57, R62, R67, R71, R72): what each reader over a list of bits accepts,
as an equation on the bits, and the run codes as one family over their unary count. -/

namespace Sys2Proof

/-! ### The bits of a field -/

theorem bitsOf_eq_ofFn {n : Nat} (v : BitVec n) : bitsOf v = List.ofFn fun i : Fin n => v.getMsbD i := by
  induction n with
  | zero => rfl
  | succ n ih =>
    have hskip (i : Nat) : i + (n + 1) - n = i + 1 := by omega
    simp [bitsOf, ih, List.ofFn_succ, BitVec.msb, BitVec.getMsbD_setWidth, hskip]

/-- The bits of two fields side by side, the left one first (R42). -/
theorem bitsOf_append {m n : Nat} (u : BitVec m) (v : BitVec n) : bitsOf (u ++ v) = bitsOf u ++ bitsOf v := by
  simp only [bitsOf_eq_ofFn, List.ofFn_add, BitVec.getMsbD_append, Fin.val_castLE, Fin.val_natAdd]
  congr 1
  · congr 1
    funext i
    exact if_neg (Nat.not_le.mpr i.isLt)
  · congr 1
    funext i
    rw [if_pos (Nat.le_add_right ..), Nat.add_sub_cancel_left]

@[simp] theorem bitsOf_ofBool (b : Bool) : bitsOf (BitVec.ofBool b) = [b] := by
  cases b <;> rfl

/-! ### The list readers -/

/-- ReadInt takes exactly the bits of the value it answers (R71, R42). -/
theorem takeInt_eq_some_iff {n : Nat} {bits rest : List Bool} {v : BitVec n} :
    takeInt n bits = some (v, rest) ↔ bits = bitsOf v ++ rest := by
  constructor
  · intro h
    induction n generalizing bits with
    | zero => cases h; simp [bitsOf]
    | succ n ih =>
      match bits, h with
      | b :: bs, h =>
        obtain ⟨⟨u, bs'⟩, hu, hv⟩ := Option.map_eq_some_iff.mp h
        cases hv
        have hset : (BitVec.cons b u).setWidth n = u := BitVec.setWidth_cons
        simp [bitsOf, hset, ih hu]
  · rintro rfl
    exact takeInt_bitsOf_append v rest

/-- ReadInt fails only where the bits run out (R71). -/
theorem takeInt_eq_none_iff {n : Nat} {bits : List Bool} : takeInt n bits = none ↔ bits.length < n := by
  induction n generalizing bits with
  | zero => simp [takeInt]
  | succ n ih =>
    cases bits with
    | nil => simp [takeInt]
    | cons b bs => simp [takeInt, ih]

/-- One bits short of the sixteenth are counted one by one (R72). -/
theorem takeUnary_replicate_append {j d : Nat} (h : j + d < 16) (bits : List Bool) :
    takeUnary j (List.replicate d true ++ bits) = takeUnary (j + d) bits := by
  induction d generalizing j with
  | zero => rfl
  | succ d ih =>
    have hlt : j + 1 ≠ 16 := by omega
    rw [List.replicate_succ, List.cons_append, takeUnary, if_neg hlt, ih (by omega)]
    congr 1
    omega

/-- The three answers of ReadUnary (R72): a count below sixteen, the sixteenth one bit, or the end of the bits before
either. -/
theorem takeUnary_cases {j : Nat} (hj : j < 16) (bits : List Bool) :
    (∃ d rest, j + d < 16 ∧ bits = List.replicate d true ++ false :: rest
      ∧ takeUnary j bits = some (.count (j + d), rest))
    ∨ (∃ rest, bits = List.replicate (16 - j) true ++ rest ∧ takeUnary j bits = some (.invalid, rest))
    ∨ (bits.length < 16 - j ∧ takeUnary j bits = none) := by
  induction bits generalizing j with
  | nil => exact .inr (.inr ⟨Nat.sub_pos_of_lt hj, rfl⟩)
  | cons b bs ih =>
    cases b with
    | false => exact .inl ⟨0, bs, hj, rfl, rfl⟩
    | true =>
      by_cases hlast : j + 1 = 16
      · have hone : 16 - j = 1 := by omega
        exact .inr (.inl ⟨bs, by rw [hone]; rfl, by simp [takeUnary, hlast]⟩)
      · have hstep : takeUnary j (true :: bs) = takeUnary (j + 1) bs := by simp [takeUnary, hlast]
        have hleft : 16 - j = (16 - (j + 1)) + 1 := by omega
        rw [hstep, hleft]
        rcases ih (j := j + 1) (by omega) with ⟨d, rest, hd, rfl, h⟩ | ⟨rest, rfl, h⟩ | ⟨hlen, h⟩
        · exact .inl ⟨d + 1, rest, by omega, rfl, by rw [h, Nat.add_assoc, Nat.add_comm 1]⟩
        · exact .inr (.inl ⟨rest, rfl, h⟩)
        · exact .inr (.inr ⟨Nat.succ_lt_succ hlen, h⟩)

/-! ### The run codes as one family -/

/-- The run code with unary count `k` and extra value `x` (R62), sixteen one bits for a count above fifteen. -/
def runCode : (k : Nat) → BitVec (k + 1) → Instr
  | 0, x => .runK0 x
  | 1, x => .runK1 x
  | 2, x => .runK2 x
  | 3, x => .runK3 x
  | 4, x => .runK4 x
  | 5, x => .runK5 x
  | 6, x => .runK6 x
  | 7, x => .runK7 x
  | 8, x => .runK8 x
  | 9, x => .runK9 x
  | 10, x => .runK10 x
  | 11, x => .runK11 x
  | 12, x => .runK12 x
  | 13, x => .runK13 x
  | 14, x => .runK14 x
  | 15, x => .runK15 x
  | _, _ => .runInvalid

/-- A unary count is one of the sixteen of R62. -/
theorem unaryCount_cases {P : (k : Nat) → k < 16 → Prop}
    (c0 : P 0 (by decide)) (c1 : P 1 (by decide)) (c2 : P 2 (by decide)) (c3 : P 3 (by decide))
    (c4 : P 4 (by decide)) (c5 : P 5 (by decide)) (c6 : P 6 (by decide)) (c7 : P 7 (by decide))
    (c8 : P 8 (by decide)) (c9 : P 9 (by decide)) (c10 : P 10 (by decide)) (c11 : P 11 (by decide))
    (c12 : P 12 (by decide)) (c13 : P 13 (by decide)) (c14 : P 14 (by decide)) (c15 : P 15 (by decide)) :
    ∀ k hk, P k hk
  | 0, _ => c0 | 1, _ => c1 | 2, _ => c2 | 3, _ => c3 | 4, _ => c4 | 5, _ => c5 | 6, _ => c6 | 7, _ => c7
  | 8, _ => c8 | 9, _ => c9 | 10, _ => c10 | 11, _ => c11 | 12, _ => c12 | 13, _ => c13 | 14, _ => c14 | 15, _ => c15
  | k + 16, hk => absurd hk (by omega)

theorem decodeExtra_eq {k : Nat} (hk : k < 16) (bits : List Bool) :
    decodeExtra k bits = decodeField (k + 1) (runCode k) bits := by
  cases k, hk using unaryCount_cases <;> rfl

theorem encode_runCode {k : Nat} (hk : k < 16) (x : BitVec (k + 1)) : encode (runCode k x) = encodeRun k x := by
  cases k, hk using unaryCount_cases <;> rfl

theorem place_runCode (k : Nat) (x : BitVec (k + 1)) : (runCode k x).place = .run := by
  unfold runCode; split <;> rfl

theorem runShape_runCode {k : Nat} (hk : k < 16) (x : BitVec (k + 1)) :
    Machine.runShape (runCode k x) = some (k, 2 ^ (k + 1) - 1 + x.toNat) := by
  cases k, hk using unaryCount_cases <;> rfl

/-- The instructions with a run length are the run codes of the family, with the closed form of R62. -/
theorem runShape_eq_some_iff {i : Instr} {k n : Nat} :
    Machine.runShape i = some (k, n) ↔ k < 16 ∧ ∃ x, i = runCode k x ∧ n = 2 ^ (k + 1) - 1 + x.toNat := by
  constructor
  · intro h
    cases i with
    | runK0 x | runK1 x | runK2 x | runK3 x | runK4 x | runK5 x | runK6 x | runK7 x | runK8 x | runK9 x | runK10 x
    | runK11 x | runK12 x | runK13 x | runK14 x | runK15 x => cases h; exact ⟨by decide, x, rfl, rfl⟩
    | _ => cases h
  · rintro ⟨hk, x, rfl, rfl⟩
    exact runShape_runCode hk x

/-! ### The decoders of one code word -/

theorem decodeField_eq_code_iff {n : Nat} {mk : BitVec n → Instr} {bits rest : List Bool} {i : Instr} :
    decodeField n mk bits = .code i rest ↔ ∃ v, i = mk v ∧ bits = bitsOf v ++ rest := by
  unfold decodeField
  simp only [← takeInt_eq_some_iff]
  constructor
  · intro h
    split at h
    · next v r hv => cases h; exact ⟨v, rfl, hv⟩
    · cases h
  · rintro ⟨v, rfl, hv⟩
    simp [hv]

theorem length_lt_of_decodeField_reject {n : Nat} {mk : BitVec n → Instr} {bits : List Bool} {why : Reject}
    (h : decodeField n mk bits = .reject why) : bits.length < n := by
  unfold decodeField at h
  split at h
  · cases h
  · next hnone => exact takeInt_eq_none_iff.mp hnone

theorem decodeBit_eq_code_iff {mk : Bool → Instr} {bits rest : List Bool} {i : Instr} :
    decodeBit mk bits = .code i rest ↔ ∃ b, i = mk b ∧ bits = b :: rest := by
  cases bits with
  | nil => simp [decodeBit]
  | cons b bs =>
    constructor
    · intro h; cases h; exact ⟨b, rfl, rfl⟩
    · rintro ⟨_, rfl, h⟩; cases h; rfl

/-- A run code is read as its unary count and then its extra bits (R62). -/
theorem decodeRun_encodeRun {k : Nat} (hk : k < 16) (x : BitVec (k + 1)) (rest : List Bool) :
    decodeRun (encodeRun k x ++ rest) = .code (runCode k x) rest := by
  have hunary : takeUnary 0 (encodeRun k x ++ rest) = some (.count k, bitsOf x ++ rest) := by
    have h := takeUnary_replicate_append (j := 0) (d := k) (by omega) (false :: (bitsOf x ++ rest))
    simpa [encodeRun, takeUnary] using h
  simp only [decodeRun, hunary, decodeExtra_eq hk]
  exact decodeField_eq_code_iff.mpr ⟨x, rfl, rfl⟩

theorem decodeRun_invalid (rest : List Bool) :
    decodeRun (List.replicate 16 true ++ rest) = .code .runInvalid rest := rfl

/-- The three answers of the run decoder: a run code, sixteen one bits (R83), or the end of the bits in a code word of
at most 32 bits. -/
theorem decodeRun_cases (bits : List Bool) :
    (∃ k x rest, k < 16 ∧ bits = encodeRun k x ++ rest ∧ decodeRun bits = .code (runCode k x) rest)
    ∨ (∃ rest, bits = List.replicate 16 true ++ rest ∧ decodeRun bits = .code .runInvalid rest)
    ∨ (bits.length < 32 ∧ decodeRun bits = .reject .endOfStream) := by
  rcases takeUnary_cases (j := 0) (by omega) bits with ⟨k, tail, hk, rfl, h⟩ | ⟨rest, rfl, _⟩ | ⟨hlen, h⟩
  · rw [Nat.zero_add] at hk h
    cases hx : takeInt (k + 1) tail with
    | none =>
      have hshort := takeInt_eq_none_iff.mp hx
      refine .inr (.inr ⟨?_, ?_⟩)
      · rw [List.length_append, List.length_replicate, List.length_cons]
        omega
      · simp only [decodeRun, h, decodeExtra_eq hk, decodeField, hx]
    | some p =>
      obtain ⟨x, rest⟩ := p
      obtain rfl := takeInt_eq_some_iff.mp hx
      have hbits : List.replicate k true ++ false :: (bitsOf x ++ rest) = encodeRun k x ++ rest := by
        simp [encodeRun]
      exact .inl ⟨k, x, rest, hk, hbits, hbits ▸ decodeRun_encodeRun hk x rest⟩
  · exact .inr (.inl ⟨rest, rfl, decodeRun_invalid rest⟩)
  · exact .inr (.inr ⟨by omega, by simp [decodeRun, h]⟩)

theorem encode_literalGroup (g : BitVec 2) : encode (literalGroup g) = bitsOf g := by
  revert g; decide

theorem place_literalGroup (g : BitVec 2) : (literalGroup g).place = .literal := by
  revert g; decide

theorem decode_literalGroup (g : BitVec 2) (rest : List Bool) :
    decode .literal (encode (literalGroup g) ++ rest) = .code (literalGroup g) rest := by
  rw [encode_literalGroup]
  exact decodeField_eq_code_iff.mpr ⟨g, rfl, rfl⟩

/-! ### The START command's word -/

/-- The START command's bits are those of the CTRL word with its reserved bits above bit 0 (R28, R110). -/
theorem encode_cmdStart (x : BitVec 31) : encode (.cmdStart x) = bitsOf (x.concat true) := by
  rw [BitVec.concat, bitsOf_append, bitsOf_ofBool, encode]

theorem concat_extractLsb'_of_start {v : BitVec 32} (h : v.getLsbD 0 = true) :
    (v.extractLsb' 1 31).concat true = v := by
  refine BitVec.eq_of_getLsbD_eq fun i hi => ?_
  cases i with
  | zero => simpa using h.symm
  | succ i =>
    have hlt : i < 31 := by omega
    simp [Nat.add_comm 1, hlt]

/-- The host's command decoder answers the START command, from a word with bit 0 set (R28, R110). -/
theorem decodeCtrl_eq_code_iff {bits rest : List Bool} {i : Instr} :
    decodeCtrl bits = .code i rest ↔ ∃ x, i = .cmdStart x ∧ bits = encode (.cmdStart x) ++ rest := by
  constructor
  · intro h
    unfold decodeCtrl at h
    split at h
    · cases h
    · next v tail hv =>
      split at h
      · next hstart =>
        cases h
        refine ⟨_, rfl, ?_⟩
        rw [encode_cmdStart, concat_extractLsb'_of_start hstart]
        exact takeInt_eq_some_iff.mp hv
      · cases h
  · rintro ⟨x, rfl, rfl⟩
    have hv : takeInt 32 (encode (.cmdStart x) ++ rest) = some (x.concat true, rest) :=
      takeInt_eq_some_iff.mpr (by rw [encode_cmdStart])
    have hstart : (x.concat true).getLsbD 0 = true := by simp
    have hx : (x.concat true).extractLsb' 1 31 = x := by
      refine BitVec.eq_of_getLsbD_eq fun i hi => ?_
      simp [Nat.add_comm 1, hi]
    simp only [decodeCtrl, hv, hstart, if_true, hx]

/-! ### The decoder against the encoder -/

open Laws.CodeLength in
/-- Every encoding has the tabulated length, between 1 and 32 bits (R57). -/
theorem codeLength_statement : ∀ i, Laws.CodeLength.Statement i
  | .hdrWidth1 w => hdrWidth1 w | .hdrWidth2 v => hdrWidth2 v | .hdrOrder o => hdrOrder o
  | .pmodeRun => pmodeRun | .pmodeLit => pmodeLit
  | .litEnd => litEnd | .lit1 => lit1 | .lit2 => lit2 | .lit3 => lit3
  | .runK0 x => runK0 x | .runK1 x => runK1 x | .runK2 x => runK2 x | .runK3 x => runK3 x
  | .runK4 x => runK4 x | .runK5 x => runK5 x | .runK6 x => runK6 x | .runK7 x => runK7 x
  | .runK8 x => runK8 x | .runK9 x => runK9 x | .runK10 x => runK10 x | .runK11 x => runK11 x
  | .runK12 x => runK12 x | .runK13 x => runK13 x | .runK14 x => runK14 x | .runK15 x => runK15 x
  | .runInvalid => runInvalid
  | .mode0 => mode0 | .mode1 => mode1 | .mode2 => mode2
  | .cmdStart x => cmdStart x

theorem encode_length (i : Instr) : (encode i).length = i.codeLength := (codeLength_statement i).1

theorem codeLength_le (i : Instr) : i.codeLength ≤ 32 := (codeLength_statement i).2.2

/-- The decoder, at the place of an instruction, reads the instruction back from its encoding (R57, R67). -/
theorem decode_encode_append (i : Instr) (rest : List Bool) : decode i.place (encode i ++ rest) = .code i rest := by
  cases i with
  | hdrWidth1 v | hdrWidth2 v => exact decodeField_eq_code_iff.mpr ⟨v, rfl, rfl⟩
  | hdrOrder o => exact decodeBit_eq_code_iff.mpr ⟨o, rfl, rfl⟩
  | pmodeRun | pmodeLit => rfl
  | litEnd => exact decode_literalGroup 0 rest
  | lit1 => exact decode_literalGroup 1 rest
  | lit2 => exact decode_literalGroup 2 rest
  | lit3 => exact decode_literalGroup 3 rest
  | runK0 x | runK1 x | runK2 x | runK3 x | runK4 x | runK5 x | runK6 x | runK7 x | runK8 x | runK9 x | runK10 x
  | runK11 x | runK12 x | runK13 x | runK14 x | runK15 x => exact decodeRun_encodeRun (by decide) x rest
  | runInvalid => exact decodeRun_invalid rest
  | mode0 | mode1 | mode2 => rfl
  | cmdStart x => exact decodeCtrl_eq_code_iff.mpr ⟨x, rfl, rfl⟩

/-- Whatever the decoder accepts in a parse state is the encoding of an instruction of that place (R56, R57, R67). -/
theorem place_and_encode_of_decode {p : ParseState} {bits rest : List Bool} {i : Instr}
    (h : decode p bits = .code i rest) : i.place = p ∧ bits = encode i ++ rest := by
  cases p with
  | width1 | width2 => obtain ⟨v, rfl, rfl⟩ := decodeField_eq_code_iff.mp h; exact ⟨rfl, rfl⟩
  | order => obtain ⟨o, rfl, rfl⟩ := decodeBit_eq_code_iff.mp h; exact ⟨rfl, rfl⟩
  | planeStart =>
    obtain ⟨b, rfl, rfl⟩ := decodeBit_eq_code_iff.mp h
    cases b
    · exact ⟨rfl, rfl⟩
    · exact ⟨rfl, rfl⟩
  | literal =>
    obtain ⟨g, rfl, rfl⟩ := decodeField_eq_code_iff.mp h
    exact ⟨place_literalGroup g, by rw [encode_literalGroup]⟩
  | run =>
    change decodeRun bits = _ at h
    rcases decodeRun_cases bits with ⟨k, x, tail, hk, rfl, hrun⟩ | ⟨tail, rfl, hrun⟩ | ⟨_, hrun⟩
    · rw [hrun] at h; cases h; exact ⟨place_runCode k x, by rw [encode_runCode hk]⟩
    · rw [hrun] at h; cases h; exact ⟨rfl, rfl⟩
    · rw [hrun] at h; cases h
  | mode =>
    match bits, h with
    | false :: _, h => cases h; exact ⟨rfl, rfl⟩
    | true :: false :: _, h => cases h; exact ⟨rfl, rfl⟩
    | true :: true :: _, h => cases h; exact ⟨rfl, rfl⟩
  | ctrlWrite => obtain ⟨x, rfl, rfl⟩ := decodeCtrl_eq_code_iff.mp h; exact ⟨rfl, rfl⟩

/-- The bits that spell an instruction in a parse state are its encoding, no others (R57, R67). -/
theorem decode_eq_code_iff {p : ParseState} {bits rest : List Bool} {i : Instr} :
    decode p bits = .code i rest ↔ i.place = p ∧ bits = encode i ++ rest := by
  refine ⟨place_and_encode_of_decode, ?_⟩
  rintro ⟨rfl, rfl⟩
  exact decode_encode_append i rest

/-- A parse state of the stream rejects only bits that end inside a code word of at most 32 (R65). -/
theorem length_lt_of_decode_reject {p : ParseState} {bits : List Bool} {why : Reject} (hp : p ≠ .ctrlWrite)
    (h : decode p bits = .reject why) : bits.length < 32 := by
  cases p with
  | width1 | width2 | literal => exact Nat.lt_of_lt_of_le (length_lt_of_decodeField_reject h) (by decide)
  | order | planeStart =>
    match bits, h with
    | [], _ => decide
  | run =>
    change decodeRun bits = _ at h
    rcases decodeRun_cases bits with ⟨_, _, _, _, _, hrun⟩ | ⟨_, _, hrun⟩ | ⟨hlen, _⟩
    · rw [hrun] at h; cases h
    · rw [hrun] at h; cases h
    · exact hlen
  | mode =>
    match bits, h with
    | [], _ => decide
    | [true], _ => decide
  | ctrlWrite => exact absurd rfl hp

/-! ### The statements on code words (O1 to O4) -/

/-- Settles O1: the instruction's place and its encoding are all the decoder asks for. -/
theorem decodeReadsBackEncode : Obligations.DecodeReadsBackEncode :=
  fun i rest _ => decode_encode_append i rest

/-- Settles O2: the accepted bits are an encoding, whose length is tabulated. -/
theorem decodeAcceptsOnlyEncodings : Obligations.DecodeAcceptsOnlyEncodings := by
  intro p bits rest i h
  obtain ⟨hplace, hbits⟩ := decode_eq_code_iff.mp h
  exact ⟨hplace, hbits, encode_length i⟩

/-- Settles O3: bits that are rejected are fewer than 32. -/
theorem longStreamsAlwaysDecode : Obligations.LongStreamsAlwaysDecode := by
  intro p bits hp hlen
  cases h : decode p bits with
  | code i rest => exact ⟨i, rest, rfl, (decode_eq_code_iff.mp h).1⟩
  | reject why => exact absurd (length_lt_of_decode_reject hp h) (by omega)

/-- Settles O4: each word is the encoding of its instruction. -/
theorem writtenWordsDecode : Obligations.WrittenWordsDecode :=
  ⟨decode_encode_append (.hdrWidth1 5) [], decode_encode_append (.hdrOrder true) [], decode_encode_append .pmodeLit [],
    decode_encode_append .lit2 [], decode_encode_append .mode1 [], decode_encode_append (.runK2 5) [],
    decode_encode_append .runInvalid [], decode_encode_append (.cmdStart 0) []⟩

end Sys2Proof
end

section
/-! SUPPORT. The run codes by their length (O5), and streams assembled from statements (O59): R62, R68, R69. -/

namespace Sys2Proof

open Sys2Proof.Machine

/-! ### Run lengths -/

/-- The unary count of a run length from the range of that count (R69). -/
theorem runPrefix_of_bounds {k n : Nat} (hlo : 2 ^ (k + 1) - 1 ≤ n) (hhi : n ≤ 2 ^ (k + 2) - 2) : runPrefix n = k := by
  have hpos : 0 < 2 ^ (k + 1) := Nat.two_pow_pos _
  have hpow : 2 ^ (k + 1 + 1) = 2 ^ (k + 2) := rfl
  have hlog : Nat.log2 (n + 1) = k + 1 := (Nat.log2_eq_iff (by omega)).mpr ⟨by omega, by omega⟩
  rw [runPrefix, hlog, Nat.add_sub_cancel]

/-- Every run length of R62 has a unary count in 0..15, and lies in the range of that count. -/
theorem runPrefix_bounds {n : Nat} (hlo : 1 ≤ n) (hhi : n ≤ 131070) :
    runPrefix n < 16 ∧ 2 ^ (runPrefix n + 1) - 1 ≤ n ∧ n ≤ 2 ^ (runPrefix n + 2) - 2 := by
  have hle : 1 ≤ Nat.log2 (n + 1) := (Nat.le_log2 (by omega)).mpr (by omega)
  have hlt : Nat.log2 (n + 1) < 17 := (Nat.log2_lt (by omega)).mpr (by omega)
  have hself : 2 ^ Nat.log2 (n + 1) ≤ n + 1 := Nat.log2_self_le (by omega)
  have hnext : n + 1 < 2 ^ (Nat.log2 (n + 1) + 1) := Nat.lt_log2_self
  have hsub : runPrefix n + 1 = Nat.log2 (n + 1) := by unfold runPrefix; omega
  have hsub2 : runPrefix n + 2 = Nat.log2 (n + 1) + 1 := by omega
  rw [hsub, hsub2]
  omega

/-- `RUN n` is the family's code of its unary count, with the rest of `n` as extra value (R69). -/
theorem runOf_eq {k n : Nat} (hk : k < 16) (h : runPrefix n = k) :
    runOf n = runCode k (BitVec.ofNat (k + 1) (n - (2 ^ (k + 1) - 1))) := by
  simp only [runOf, h]
  cases k, hk using unaryCount_cases <;> rfl

/-- The extra value of a run code keeps its length in the range of its unary count (R62). -/
theorem runShape_bounds {i : Instr} {k n : Nat} (h : runShape i = some (k, n)) :
    2 ^ (k + 1) - 1 ≤ n ∧ n ≤ 2 ^ (k + 2) - 2 := by
  obtain ⟨_, x, _, rfl⟩ := runShape_eq_some_iff.mp h
  have hx := x.isLt
  have hpow : 2 ^ (k + 2) = 2 * 2 ^ (k + 1) := Nat.pow_succ'
  omega

/-- `RUN n` has length `n` (R69). -/
theorem runShape_runOf {n : Nat} (hlo : 1 ≤ n) (hhi : n ≤ 131070) : runShape (runOf n) = some (runPrefix n, n) := by
  obtain ⟨hk, hge, hle⟩ := runPrefix_bounds hlo hhi
  refine runShape_eq_some_iff.mpr ⟨hk, _, runOf_eq hk rfl, ?_⟩
  have hpow : 2 ^ (runPrefix n + 2) = 2 * 2 ^ (runPrefix n + 1) := Nat.pow_succ'
  rw [BitVec.toNat_ofNat, Nat.mod_eq_of_lt (by omega)]
  omega

/-- A run code is fixed by its length (R62). -/
theorem eq_runOf_of_runShape {i : Instr} {k n : Nat} (h : runShape i = some (k, n)) : i = runOf n := by
  obtain ⟨hge, hle⟩ := runShape_bounds h
  obtain ⟨hk, x, rfl, rfl⟩ := runShape_eq_some_iff.mp h
  rw [runOf_eq hk (runPrefix_of_bounds hge hle), Nat.add_sub_cancel_left, BitVec.ofNat_toNat, BitVec.setWidth_eq]

theorem place_of_runShape {i : Instr} {k n : Nat} (h : runShape i = some (k, n)) : i.place = .run := by
  obtain ⟨_, x, rfl, _⟩ := runShape_eq_some_iff.mp h
  exact place_runCode k x

theorem encode_length_of_runShape {i : Instr} {k n : Nat} (h : runShape i = some (k, n)) :
    (encode i).length = 2 * k + 2 := by
  obtain ⟨hk, x, rfl, _⟩ := runShape_eq_some_iff.mp h
  rw [encode_runCode hk, encodeRun_length]
  omega

/-- Bits read whole at RUN as an instruction are its encoding (R57). -/
theorem eq_encode_of_decode_run {bits : List Bool} {i : Instr} (h : decode .run bits = .code i []) :
    bits = encode i := by
  simpa using (decode_eq_code_iff.mp h).2

/-- Settles O5: the code word of length `n` is the encoding of `RUN n`. -/
theorem everyRunLengthHasOneCode : Obligations.EveryRunLengthHasOneCode := by
  refine ⟨fun n hlo hhi => ⟨encode (runOf n), ?_, ?_⟩, fun bits i k n hdec hshape => ?_⟩
  · have hshape := runShape_runOf hlo hhi
    have hdec : decode .run (encode (runOf n)) = .code (runOf n) [] :=
      decode_eq_code_iff.mpr ⟨place_of_runShape hshape, by simp⟩
    exact ⟨_, _, hdec, hshape⟩
  · rintro other ⟨i, k, hdec, hshape⟩
    rw [eq_encode_of_decode_run hdec, eq_runOf_of_runShape hshape]
  · rw [eq_encode_of_decode_run hdec]
    exact ⟨encode_length_of_runShape hshape, runShape_bounds hshape⟩

/-! ### Assembled streams -/

/-- The bits of a byte put together from its bits are those bits (R41). -/
theorem bitsOf_byte (b7 b6 b5 b4 b3 b2 b1 b0 : Bool) :
    bitsOf (BitVec.ofBool b7 ++ BitVec.ofBool b6 ++ BitVec.ofBool b5 ++ BitVec.ofBool b4 ++ BitVec.ofBool b3
      ++ BitVec.ofBool b2 ++ BitVec.ofBool b1 ++ BitVec.ofBool b0) = [b7, b6, b5, b4, b3, b2, b1, b0] := by
  simp only [bitsOf_append, bitsOf_ofBool, List.cons_append, List.nil_append]

/-- Bits that do not begin with a whole byte are fewer than eight. -/
theorem length_lt_eight {short : List Bool}
    (h : ∀ b7 b6 b5 b4 b3 b2 b1 b0 rest, short = b7 :: b6 :: b5 :: b4 :: b3 :: b2 :: b1 :: b0 :: rest → False) :
    short.length < 8 := by
  match short, h with
  | [], _ | [_], _ | [_, _], _ | [_, _, _], _ | [_, _, _, _], _ | [_, _, _, _, _], _ | [_, _, _, _, _, _], _
  | [_, _, _, _, _, _, _], _ => simp
  | _ :: _ :: _ :: _ :: _ :: _ :: _ :: _ :: _, h => exact (h _ _ _ _ _ _ _ _ _ rfl).elim

/-- The bytes hold the bits in order, then fewer than eight zero bits (R41, R68). -/
theorem flatMap_bitsOf_packBits (bits : List Bool) :
    ∃ pad, pad < 8 ∧ (packBits bits).flatMap bitsOf = bits ++ List.replicate pad false := by
  induction bits using packBits.induct with
  | case1 => exact ⟨0, by decide, rfl⟩
  | case2 b7 b6 b5 b4 b3 b2 b1 b0 rest ih =>
    obtain ⟨pad, hpad, h⟩ := ih
    refine ⟨pad, hpad, ?_⟩
    have hb := bitsOf_byte b7 b6 b5 b4 b3 b2 b1 b0
    rw [packBits, List.flatMap_cons, h]
    exact congrArg (· ++ _) hb
  | case3 short hne hlong v tail hv =>
    have hpos : 0 < short.length := List.length_pos_iff.mpr hne
    have hlen : short.length < 8 := length_lt_eight hlong
    have hpack : packBits short = [v] := by rw [packBits, hv] <;> assumption
    refine ⟨8 - short.length, by omega, ?_⟩
    calc (packBits short).flatMap bitsOf
        = (bitsOf v ++ tail).take 8 := by simp [hpack]
      _ = (short ++ List.replicate 8 false).take 8 := by rw [takeInt_eq_some_iff.mp hv]
      _ = short ++ List.replicate (8 - short.length) false := by
        rw [List.take_append, List.take_of_length_le (Nat.le_of_lt hlen), List.take_replicate, Nat.min_eq_left (Nat.sub_le ..)]
  | case4 short _ _ hnone =>
    have hlen := takeInt_eq_none_iff.mp hnone
    rw [List.length_append, List.length_replicate] at hlen
    omega

/-- Settles O59: the bits packed are the statements' bits, and `RUN n` is the family's code of length `n`. -/
theorem assembledStreamsHoldTheirStatements : Obligations.AssembledStreamsHoldTheirStatements :=
  ⟨fun ss => flatMap_bitsOf_packBits (ss.flatMap emit), fun _ => runShape_runOf⟩

end Sys2Proof
end

section
/-! SUPPORT. The fetch of a code word (O10, O12), and what goes on from every state that meets the invariant (O45):
R55, R56, R65, R67, R112. -/

namespace Sys2Proof.Machine

/-! ### Looking ahead -/

theorem State.readBit_pop (s : State) : s.pop.readBit = s.readBit.map fun p => (p.1, p.2.pop) := by
  simp only [State.readBit, apply_ite (Option.map _)]
  rfl

/-- The event taken is no part of the stream. -/
theorem State.peekBits_pop (n : Nat) (s : State) : s.pop.peekBits n = s.peekBits n := by
  induction n generalizing s with
  | zero => rfl
  | succ n ih =>
    simp only [State.peekBits, State.readBit_pop]
    cases s.readBit with
    | none => rfl
    | some p => simp [ih]

/-- Looking further ahead shows the same bits first. -/
theorem State.take_peekBits {n m : Nat} (h : n ≤ m) (s : State) : (s.peekBits m).take n = s.peekBits n := by
  induction n generalizing m s with
  | zero => simp [State.peekBits]
  | succ n ih =>
    match m, h with
    | m + 1, h =>
      simp only [State.peekBits]
      cases s.readBit with
      | none => rfl
      | some p => simp [ih (Nat.le_of_succ_le_succ h)]

/-- As many bits are consumed as are there to be seen (R70). -/
theorem State.consume_length_peekBits (n : Nat) (s : State) : s.consume (s.peekBits n).length = s.consume n := by
  induction n generalizing s with
  | zero => rfl
  | succ n ih =>
    cases h : s.readBit with
    | none => simp [State.peekBits, State.consume, h]
    | some p => simp [State.peekBits, State.consume, h, ih]

/-! ### The fetch of a code word -/

/-- A code word seen in any stretch of the stream of 32 bits or more is the one fetched (R55, R67). -/
theorem State.fetchCode_of_decode_code {s : State} {p : ParseState} {n : Nat} {i : Instr} {rest : List Bool}
    (hn : window ≤ n) (h : decode p (s.peekBits n) = .code i rest) :
    s.fetchCode p = .instr i (s.consume i.codeLength) := by
  obtain ⟨hplace, hbits⟩ := decode_eq_code_iff.mp h
  have hlen : (encode i).length ≤ window := by rw [encode_length]; exact codeLength_le i
  have hwindow : s.peekBits window = encode i ++ rest.take (window - (encode i).length) := by
    rw [← State.take_peekBits hn, hbits, List.take_append, List.take_of_length_le hlen]
  have hdec : decode p (s.peekBits window) = .code i (rest.take (window - (encode i).length)) :=
    decode_eq_code_iff.mpr ⟨hplace, hwindow⟩
  have hused : (s.peekBits window).length - (rest.take (window - (encode i).length)).length = i.codeLength := by
    rw [hwindow, List.length_append, Nat.add_sub_cancel, encode_length]
  rw [State.fetchCode, hdec, ← hused]

/-- A stream that ends inside the code word is consumed to its end (R55, R70). -/
theorem State.fetchCode_of_decode_reject {s : State} {p : ParseState} {n : Nat} {why : Reject} (hp : p ≠ .ctrlWrite)
    (hn : window ≤ n) (h : decode p (s.peekBits n) = .reject why) : s.fetchCode p = .outOfData (s.consume n) := by
  have hwindow : s.peekBits window = s.peekBits n := by
    rw [← State.take_peekBits hn]
    exact List.take_of_length_le (Nat.le_of_lt (length_lt_of_decode_reject hp h))
  rw [State.fetchCode, hwindow, h, ← State.consume_length_peekBits n]

/-- Settles O10: no code word is longer than the 32 bits the fetch looks at. -/
theorem fetchReadsOneCodeWord : Obligations.FetchReadsOneCodeWord :=
  fun _ _ _ hp hn => ⟨fun _ _ => State.fetchCode_of_decode_code hn, fun _ => State.fetchCode_of_decode_reject hp hn⟩

/-- Settles O12: the event taken leaves the parse state and the bits at the cursor. -/
theorem stepRunsTheDecodedCodeWord : Obligations.StepRunsTheDecodedCodeWord := by
  intro s p i rest hturn hparse hdec
  have hb : s.pop.status = .busy := State.busy_of_parse hparse
  have hp : s.pop.parse = some p := hparse
  have hfetch : s.fetch = .instr i (s.pop.consume i.codeLength) := by
    rw [State.pop_of_engineNext hturn, State.fetchEngine, if_pos hb, hp]
    exact State.fetchCode_of_decode_code (Nat.le_refl _) (by rw [State.peekBits_pop]; exact hdec)
  rw [step, hfetch]

/-! ### What always goes on -/

/-- An instruction executed where it stands answers a next state (R56). -/
theorem exec_next_of_place {i : Instr} {s : State} (h : s.parse = some i.place) : ∃ t, exec i s = .next t := by
  cases i with
  | cmdStart x => exact ⟨_, rfl⟩
  | _ => exact ⟨_, State.inPlace_of_parse h _⟩

/-- MERGE has its step in every mode a mode code gives (R98 to R100, R103). -/
theorem State.merge_next {s : State} (hmode : s.mode ≠ 3) : ∃ t, s.merge = .next t := by
  unfold State.merge
  split
  · exact ⟨_, rfl⟩
  · split
    · exact ⟨_, rfl⟩
    · split
      · exact ⟨_, rfl⟩
      · bv_omega

/-- A stage that reads no stream has its work to do, unless it is no stage at all or MERGE with mode 3 (R112). -/
theorem State.engineWork_next {s : State} (hb : s.status = .busy) (hparse : s.parse = none) (hstage : s.stage ≠ .idle)
    (hmode : s.mode ≠ 3) : ∃ t, s.engineWork = .next t := by
  unfold State.engineWork
  cases hs : s.stage with
  | idle => exact absurd hs hstage
  | header f => cases f <;> simp [State.parse, hb, hs] at hparse
  | planeA p | planeB p =>
    cases p with
    | start => simp [State.parse, hb, hs] at hparse
    | body => exact ⟨_, rfl⟩
  | mode => simp [State.parse, hb, hs] at hparse
  | merge => exact State.merge_next hmode
  | output | finish => exact ⟨_, rfl⟩

/-- The engine's turn always answers a next state: what it reads stands where it is read (R56, R65, R139). -/
theorem step_next_of_engineNext {s : State} (h : Inv s) (hturn : s.engineNext = true) : ∃ t, step s = .next t := by
  unfold step
  rw [State.pop_of_engineNext hturn]
  rcases s.pop.fetchEngine_cases with ⟨_, he⟩ | ⟨hb, hparse, he⟩ | ⟨p, hparse, he⟩
  · rw [he]; exact ⟨_, rfl⟩
  · rw [he]; exact State.engineWork_next hb hparse (h.busy_iff.mp hb) h.mode_legal
  · rcases s.pop.fetchCode_cases p with ⟨i, rest, hdec, hc⟩ | ⟨_, _, hc⟩
    · obtain ⟨rfl, _⟩ := decode_eq_code_iff.mp hdec
      rw [he, hc]
      exact exec_next_of_place (by rw [State.parse_consume, hparse])
    · rw [he, hc]; exact ⟨_, rfl⟩

/-- An access of the interface always answers a next state, as the START command or as an access (R45, R110). -/
theorem step_next_of_access {s : State} {a : Access} {rest : List Event} (h : s.pending = .access a :: rest)
    (hwf : a.wf = true) : ∃ t, step s = .next t := by
  unfold step
  rw [State.fetch_access_pop h]
  rcases s.pop.fetchAccess_cases a with ha | ⟨v, i, tail, _, hdec, ha⟩
  · rw [ha]; exact ⟨_, (State.hostAccess_next_iff ..).mpr ⟨hwf, rfl⟩⟩
  · have hctrl : decodeCtrl (bitsOf v) = .code i tail := hdec
    obtain ⟨x, rfl, _⟩ := decodeCtrl_eq_code_iff.mp hctrl
    rw [ha]; exact ⟨_, rfl⟩

/-- Settles O45: the next event is the engine's turn, an access or a reset. -/
theorem onlyAccessesOutsideTheInterfaceStop : Obligations.OnlyAccessesOutsideTheInterfaceStop := by
  intro s h
  match hpending : s.pending with
  | [] | .engine :: _ => exact .inl (step_next_of_engineNext h (by simp [State.engineNext, hpending]))
  | .reset :: _ => exact .inl ⟨_, step_of_reset (by simp [hpending])⟩
  | .access a :: rest =>
    by_cases hwf : a.wf = true
    · exact .inl (step_next_of_access hpending hwf)
    · exact .inr ⟨a, rest, rfl, by simpa using hwf, step_of_not_wf hpending hwf⟩

end Sys2Proof.Machine
end

section
/-! SUPPORT. The bit reader (O6 to O9) and the stream that ends inside a code word (O14): ReadBit by its cases, the
cursor as a count of bits, ReadInt and ReadUnary against the list readers, R70 to R73 and R126. -/

namespace Sys2Proof.Machine

/-! ### ReadBit -/

/-- The last bit of a byte: the cursor goes on to the next byte (R70). -/
theorem State.readBit_of_bitIndex_zero {s : State} (hlt : s.byteIndex.toNat < s.inLen.toNat) (h0 : s.bitIndex = 0) :
    s.readBit = some ((s.inByte s.byteIndex.toNat).getLsbD 0,
      { s with bitIndex := 7, byteIndex := s.byteIndex + 1 }) := by
  rw [State.readBit, if_neg (Nat.not_le.mpr hlt)]
  simp [h0]

/-- Any other bit: the cursor stays in the byte (R70). -/
theorem State.readBit_of_bitIndex_ne_zero {s : State} (hlt : s.byteIndex.toNat < s.inLen.toNat)
    (h0 : s.bitIndex ≠ 0) :
    s.readBit = some ((s.inByte s.byteIndex.toNat).getLsbD s.bitIndex.toNat,
      { s with bitIndex := s.bitIndex - 1 }) := by
  rw [State.readBit, if_neg (Nat.not_le.mpr hlt)]
  exact if_neg h0

/-- Settles O6: the three branches of ReadBit. -/
theorem readBitTakesOneBit : Obligations.ReadBitTakesOneBit :=
  fun s => ⟨s.readBit_eq_none_iff.mpr, State.readBit_of_bitIndex_zero, State.readBit_of_bitIndex_ne_zero⟩

/-! ### The cursor as a count of bits -/

/-- The cursor's byte, from the bits before it (R73). -/
theorem State.byteIndex_eq_bitPos_div (s : State) : s.byteIndex.toNat = s.bitPos / 8 := by
  have := s.bitIndex.isLt
  unfold State.bitPos
  omega

/-- The cursor's bit, from the bits before it (R73). -/
theorem State.bitIndex_eq_bitPos_mod (s : State) : s.bitIndex.toNat = 7 - s.bitPos % 8 := by
  have := s.bitIndex.isLt
  unfold State.bitPos
  omega

/-- ReadBit fails exactly where no bit of the stream is left (R70, R73). -/
theorem State.readBit_eq_none_iff_bitPos (s : State) : s.readBit = none ↔ s.streamBits ≤ s.bitPos := by
  rw [State.readBit_eq_none_iff, State.byteIndex_eq_bitPos_div, State.streamBits]
  omega

/-- After the whole stream the cursor is `(L, 7)` (R73). -/
theorem State.cursor_of_bitPos_eq_streamBits {s : State} (h : s.bitPos = s.streamBits) :
    s.byteIndex = s.inLen ∧ s.bitIndex = 7 := by
  have hbyte := s.byteIndex_eq_bitPos_div
  have hbit := s.bitIndex_eq_bitPos_mod
  rw [h, State.streamBits] at hbyte hbit
  exact ⟨BitVec.eq_of_toNat_eq (by omega), BitVec.eq_of_toNat_eq (show _ = 7 by omega)⟩

theorem State.inLen_consume (n : Nat) (s : State) : (s.consume n).inLen = s.inLen := by
  rw [State.consume_frame]

theorem State.streamBits_consume (n : Nat) (s : State) : (s.consume n).streamBits = s.streamBits := by
  rw [State.streamBits, State.inLen_consume, State.streamBits]

/-- As many bits can be seen as asked for, or as are left (R70). -/
theorem State.length_peekBits (n : Nat) (s : State) : (s.peekBits n).length = min n (s.streamBits - s.bitPos) := by
  induction n generalizing s with
  | zero => simp [State.peekBits]
  | succ n ih =>
    cases h : s.readBit with
    | none =>
      have hend := s.readBit_eq_none_iff_bitPos.mp h
      simp only [State.peekBits, h, List.length_nil]
      omega
    | some p =>
      obtain ⟨b, t⟩ := p
      obtain ⟨hpos, hle⟩ := State.readBit_bitPos h
      have hlen : t.streamBits = s.streamBits := by rw [State.readBit_frame h]; rfl
      simp only [State.peekBits, h, List.length_cons, ih, hlen]
      omega

/-- The bits seen are the bits the cursor passes (R73). -/
theorem State.bitPos_consume_eq (n : Nat) (s : State) : (s.consume n).bitPos = s.bitPos + (s.peekBits n).length := by
  induction n generalizing s with
  | zero => rfl
  | succ n ih =>
    cases h : s.readBit with
    | none => simp [State.consume, State.peekBits, h]
    | some p =>
      have hpos := (State.readBit_bitPos h).1
      simp only [State.consume, State.peekBits, h, List.length_cons, ih]
      omega

/-- Settles O7: `c` bits are there to be passed, so the cursor's position is `c`. -/
theorem cursorCountsBitsConsumed : Obligations.CursorCountsBitsConsumed := by
  intro s c hbyte hbit hc
  have hstart : s.bitPos = 0 := by simp [State.bitPos, hbyte, hbit]
  have hpos : (s.consume c).bitPos = c := by
    rw [State.bitPos_consume_eq, State.length_peekBits, hstart]
    omega
  have hbits := s.streamBits_consume c
  refine ⟨?_, ?_, ?_, fun hend => ?_⟩
  · rw [State.byteIndex_eq_bitPos_div, hpos]
  · rw [State.bitIndex_eq_bitPos_mod, hpos]
  · rw [State.readBit_eq_none_iff_bitPos, hpos, hbits]
    omega
  · rw [← s.inLen_consume c]
    exact State.cursor_of_bitPos_eq_streamBits (by rw [hpos, hbits, hend])

/-! ### What is seen is what is read -/

/-- A bit seen at the cursor is the bit ReadBit answers (R70). -/
theorem State.readBit_of_peekBits_cons {s : State} {n : Nat} {b : Bool} {rest : List Bool}
    (h : s.peekBits (n + 1) = b :: rest) :
    s.readBit = some (b, s.consume 1) ∧ (s.consume 1).peekBits n = rest := by
  cases hr : s.readBit with
  | none => simp [State.peekBits, hr] at h
  | some p =>
    simp only [State.peekBits, hr, List.cons.injEq] at h
    obtain ⟨rfl, hrest⟩ := h
    simp [State.consume, hr, hrest]

theorem State.readBit_of_peekBits_nil {s : State} {n : Nat} (h : s.peekBits (n + 1) = []) : s.readBit = none := by
  cases hr : s.readBit with
  | none => rfl
  | some p => simp [State.peekBits, hr] at h

theorem State.consume_of_readBit_none {s : State} (h : s.readBit = none) (n : Nat) : s.consume n = s := by
  cases n with
  | zero => rfl
  | succ n => simp [State.consume, h]

theorem State.consume_add (m n : Nat) (s : State) : s.consume (m + n) = (s.consume m).consume n := by
  induction m generalizing s with
  | zero => rw [Nat.zero_add]; rfl
  | succ m ih =>
    rw [Nat.succ_add]
    cases h : s.readBit with
    | none => simp [State.consume, h, State.consume_of_readBit_none h]
    | some p => simp [State.consume, h, ih]

/-! ### ReadInt -/

/-- The first bit of a field stands `n` places above the `n` bits that follow it (R42). -/
theorem setWidth_cons_eq_or {n : Nat} (b : Bool) (v : BitVec n) :
    (BitVec.cons b v).setWidth 16 = (BitVec.ofBool b).setWidth 16 <<< n ||| v.setWidth 16 := by
  apply BitVec.eq_of_getLsbD_eq
  intro i hi
  simp only [BitVec.getLsbD_or, BitVec.getLsbD_shiftLeft, BitVec.getLsbD_setWidth, BitVec.getLsbD_cons,
    BitVec.getLsbD_ofBool, hi, decide_true, Bool.true_and]
  by_cases heq : i = n
  · subst heq
    have htop : v.getLsbD i = false := BitVec.getLsbD_of_ge v i (Nat.le_refl i)
    have hlow : (0 : Nat) < 16 := by decide
    simp only [htop, hlow, Nat.lt_irrefl, Nat.sub_self, decide_true, decide_false, Bool.not_false, Bool.true_and,
      Bool.or_false, if_true]
  · have helsewhere : i < n ∨ i - n ≠ 0 := by omega
    rcases helsewhere with hlow | hhigh
    · simp only [heq, hlow, decide_true, Bool.not_true, Bool.false_and, Bool.false_or, if_false]
    · simp only [heq, hhigh, decide_false, Bool.false_and, Bool.and_false, Bool.false_or, if_false]

/-- A bit shifted in on the right becomes the most significant of the `n` bits that follow it (R42, R71). -/
theorem shiftIn_or_setWidth {n : Nat} (value : BitVec 16) (b : Bool) (v : BitVec n) :
    ((value <<< 1) ||| (BitVec.ofBool b).setWidth 16) <<< n ||| v.setWidth 16
      = value <<< (n + 1) ||| (BitVec.cons b v).setWidth 16 := by
  rw [setWidth_cons_eq_or, BitVec.shiftLeft_or_distrib, BitVec.or_assoc, Nat.add_comm, BitVec.shiftLeft_add]

/-- ReadInt's loop shifts the value of the next `n` bits in under what it has read (R71). -/
theorem State.readIntFrom_of_takeInt_some {n : Nat} {s : State} {v : BitVec n} {rest : List Bool} (value : BitVec 16)
    (h : takeInt n (s.peekBits n) = some (v, rest)) :
    State.readIntFrom value n s = (.ok (value <<< n ||| v.setWidth 16), s.consume n) := by
  induction n generalizing s value rest with
  | zero => simp [State.readIntFrom, State.consume, BitVec.eq_nil v]
  | succ n ih =>
    cases hr : s.readBit with
    | none => simp [State.peekBits, hr, takeInt] at h
    | some p =>
      simp only [State.peekBits, hr, takeInt, Option.map_eq_some_iff, Prod.mk.injEq] at h
      obtain ⟨⟨u, tail⟩, hu, rfl, _⟩ := h
      simp only [State.readIntFrom, State.consume, hr, ih _ hu, shiftIn_or_setWidth]

/-- ReadInt's loop consumes what is left where fewer than `n` bits are (R71). -/
theorem State.readIntFrom_of_takeInt_none {n : Nat} {s : State} (value : BitVec 16)
    (h : takeInt n (s.peekBits n) = none) :
    State.readIntFrom value n s = (.error .outOfData, s.consume n) := by
  induction n generalizing s value with
  | zero => cases h
  | succ n ih =>
    cases hr : s.readBit with
    | none => simp [State.readIntFrom, State.consume, hr]
    | some p =>
      simp only [State.peekBits, hr, takeInt, Option.map_eq_none_iff] at h
      simp only [State.readIntFrom, State.consume, hr, ih _ h]

/-- Settles O8: ReadInt's loop started with nothing read. -/
theorem readIntIsBigEndian : Obligations.ReadIntIsBigEndian := by
  intro s n _
  split
  · next v rest h => rw [State.readInt, State.readIntFrom_of_takeInt_some 0 h]; simp
  · next h => exact State.readIntFrom_of_takeInt_none 0 h

/-! ### ReadUnary -/

theorem State.readBit_withK (k : BitVec 5) (s : State) :
    State.readBit { s with k := k } = s.readBit.map fun p => (p.1, { p.2 with k := k }) := by
  simp only [State.readBit, apply_ite (Option.map _)]
  rfl

/-- A zero bit ends the count (R72). -/
theorem State.readUnaryFrom_of_zero_bit {s : State} {left : Nat} {rest : List Bool} (k : BitVec 5)
    (h : s.peekBits (left + 1) = false :: rest) :
    State.readUnaryFrom (left + 1) { s with k := k } = (.ok k, { s.consume 1 with k := k }) := by
  simp [State.readUnaryFrom, State.readBit_withK, (State.readBit_of_peekBits_cons h).1]

/-- The end of the stream ends the count (R72). -/
theorem State.readUnaryFrom_of_end {s : State} {left : Nat} (k : BitVec 5) (h : s.peekBits (left + 1) = []) :
    State.readUnaryFrom (left + 1) { s with k := k } = (.error .outOfData, { s with k := k }) := by
  simp [State.readUnaryFrom, State.readBit_withK, State.readBit_of_peekBits_nil h]

/-- One bits are counted one by one, and the loop goes on with what follows them (R72). -/
theorem State.readUnaryFrom_of_ones {s : State} {d left : Nat} {rest : List Bool} (k : BitVec 5)
    (h : s.peekBits (d + left) = List.replicate d true ++ rest) :
    State.readUnaryFrom (d + left) { s with k := k }
        = State.readUnaryFrom left { s.consume d with k := k + BitVec.ofNat 5 d }
      ∧ (s.consume d).peekBits left = rest := by
  induction d generalizing s k with
  | zero =>
    rw [Nat.zero_add] at h ⊢
    simpa [State.consume] using h
  | succ d ih =>
    rw [Nat.succ_add] at h ⊢
    obtain ⟨hread, hpeek⟩ := State.readBit_of_peekBits_cons h
    obtain ⟨hloop, htail⟩ := ih (k + 1) hpeek
    have hcons : s.consume (d + 1) = (s.consume 1).consume d := by rw [Nat.add_comm, State.consume_add]
    have hcount : k + 1 + BitVec.ofNat 5 d = k + BitVec.ofNat 5 (d + 1) := by
      rw [BitVec.ofNat_add, BitVec.add_assoc, BitVec.add_comm 1]
      rfl
    rw [hcons, ← hcount, ← hloop]
    exact ⟨by simp [State.readUnaryFrom, State.readBit_withK, hread], htail⟩

/-- Bits in which ReadUnary finds no end are all one bits (R72). -/
theorem eq_replicate_of_takeUnary_none {j : Nat} {bits : List Bool} (h : takeUnary j bits = none) :
    bits = List.replicate bits.length true := by
  induction bits generalizing j with
  | nil => rfl
  | cons b bs ih =>
    cases b with
    | false => cases h
    | true =>
      rw [takeUnary] at h
      split at h
      · cases h
      · rw [List.length_cons, List.replicate_succ, ← ih h]

/-- ReadUnary counts the one bits at the cursor, and its loop goes on with what follows them (R72). -/
theorem State.readUnary_of_ones {s : State} {d left : Nat} {rest : List Bool} (hd : d + left = 16)
    (h : s.peekBits 16 = List.replicate d true ++ rest) :
    s.readUnary = State.readUnaryFrom left { s.consume d with k := BitVec.ofNat 5 d }
      ∧ (s.consume d).peekBits left = rest := by
  rw [← hd] at h
  obtain ⟨hloop, hnext⟩ := State.readUnaryFrom_of_ones 0 h
  have hcount : 0 + BitVec.ofNat 5 d = BitVec.ofNat 5 d := BitVec.zero_add _
  rw [hd, hcount] at hloop
  exact ⟨hloop, hnext⟩

/-- The count ends at a zero bit before the sixteenth one bit (R72). -/
theorem State.readUnary_of_count {s : State} {k : Nat} {rest : List Bool} (hk : k < 16)
    (h : s.peekBits 16 = List.replicate k true ++ false :: rest) :
    s.readUnary = (.ok (BitVec.ofNat 5 k), { s.consume (k + 1) with k := BitVec.ofNat 5 k }) := by
  obtain ⟨hloop, hnext⟩ := State.readUnary_of_ones (left := 15 - k + 1) (by omega) h
  rw [hloop, State.readUnaryFrom_of_zero_bit _ hnext, State.consume_add]

/-- The sixteenth one bit is an error at once (R72, R83). -/
theorem State.readUnary_of_sixteen_ones {s : State} {rest : List Bool}
    (h : s.peekBits 16 = List.replicate 16 true ++ rest) :
    s.readUnary = (.error .invalidRunLength, { s.consume 16 with k := 16 }) :=
  (State.readUnary_of_ones (left := 0) rfl h).1

/-- Fewer than sixteen one bits and no other bit: the stream ends in the count (R72). -/
theorem State.readUnary_of_end {s : State} (hlen : (s.peekBits 16).length < 16)
    (h : s.peekBits 16 = List.replicate (s.peekBits 16).length true) :
    s.readUnary = (.error .outOfData, { s.consume 16 with k := BitVec.ofNat 5 (s.peekBits 16).length }) := by
  rw [← State.consume_length_peekBits 16]
  generalize (s.peekBits 16).length = d at hlen h ⊢
  rw [← List.append_nil (List.replicate d true)] at h
  obtain ⟨hloop, hnext⟩ := State.readUnary_of_ones (left := 15 - d + 1) (by omega) h
  rw [hloop, State.readUnaryFrom_of_end _ hnext]

/-- Settles O9: the three answers of the list reader say what the one bits are followed by. -/
theorem readUnaryChecksTheSixteenthBit : Obligations.ReadUnaryChecksTheSixteenthBit := by
  intro s
  rcases takeUnary_cases (j := 0) (by decide) (s.peekBits 16) with ⟨k, rest, hk, hbits, h⟩ | ⟨rest, hbits, h⟩
    | ⟨hlen, h⟩
  · rw [h, Nat.zero_add]
    exact State.readUnary_of_count (by omega) hbits
  · rw [h]
    exact State.readUnary_of_sixteen_ones hbits
  · rw [h]
    exact State.readUnary_of_end hlen (eq_replicate_of_takeUnary_none h)

/-! ### The stream that ends inside a code word -/

/-- No code word of the stream stands where the host's CTRL write does (R64). -/
theorem State.parse_ne_ctrlWrite {s : State} {p : ParseState} (h : s.parse = some p) : p ≠ .ctrlWrite := by
  rintro rfl
  simpa using State.parse_cases h

/-- Where the bits left are rejected, the engine's step is the abort at the end of the stream (R126). -/
theorem step_of_decode_reject {s : State} {p : ParseState} {why : Reject} (hturn : s.engineNext = true)
    (hparse : s.parse = some p) (h : decode p (s.peekBits window) = .reject why) :
    step s = .next (State.abort .outOfData (s.pop.consume window)) := by
  have hb : s.pop.status = .busy := State.busy_of_parse hparse
  have hp : s.pop.parse = some p := hparse
  have hfetch : s.fetch = .outOfData (s.pop.consume window) := by
    rw [State.pop_of_engineNext hturn, State.fetchEngine, if_pos hb, hp]
    exact State.fetchCode_of_decode_reject (State.parse_ne_ctrlWrite hparse) (Nat.le_refl _)
      (by rw [State.peekBits_pop]; exact h)
  rw [step, hfetch]

/-- Consuming more bits than are left leaves the cursor at `(L, 7)` and all else as it was (R70, R73). -/
theorem State.consume_eq_of_length_peekBits_lt {s : State} {n : Nat} (hcur : s.cursorInStream) (hlen : (s.peekBits n).length < n) :
    s.consume n = { s with byteIndex := s.inLen, bitIndex := 7 } := by
  have hpos : (s.consume n).bitPos = (s.consume n).streamBits := by
    have hin := s.cursorInStream_iff.mp hcur
    have hleft := s.length_peekBits n
    rw [State.bitPos_consume_eq, State.streamBits_consume]
    omega
  obtain ⟨hbyte, hbit⟩ := State.cursor_of_bitPos_eq_streamBits hpos
  rw [State.consume_frame, hbyte, hbit, State.inLen_consume]

/-- Settles O14: the bits rejected are fewer than the fetch asked for, so the abort finds the cursor at `(L, 7)`. -/
theorem streamEndAborts : Obligations.StreamEndAborts := by
  intro s p why hturn hparse hcur hdec
  have hshort : (s.pop.peekBits window).length < window := by
    rw [State.peekBits_pop]
    exact length_lt_of_decode_reject (State.parse_ne_ctrlWrite hparse) hdec
  refine ⟨_, step_of_decode_reject hturn hparse hdec, ?_⟩
  rw [State.consume_eq_of_length_peekBits_lt (s := s.pop) hcur hshort]
  exact ⟨rfl, rfl, rfl, rfl, rfl, rfl, rfl⟩

end Sys2Proof.Machine
end

section
/-! SUPPORT. The code words of the plane decoder (O17 to O21): what PMODE, a literal group and a run code do where they
stand, R75 to R83. -/

namespace Sys2Proof.Machine

/-! ### Where the plane's code words stand -/

/-- In a plane's body the sub-pass loop says what is read next (R77). -/
theorem State.parse_of_inBody {s : State} (hb : s.status = .busy) (hs : s.stage.inBody) : s.parse = s.bodyParse := by
  rcases hs with hs | hs
  · simp [State.parse, hb, hs]
  · simp [State.parse, hb, hs]

/-- A literal group is read in a literal sub-pass, a run code in a run sub-pass, with room in the plane (R77, R78,
R81). -/
theorem State.room_and_m_of_parse {s : State} {p : ParseState} (h : s.parse = some p)
    (hp : p = .literal ∨ p = .run) : s.cnt.toNat < lenUnits s.w ∧ p = if s.m then .literal else .run := by
  have hbody : s.stage.inBody ∧ s.cnt.toNat < lenUnits s.w := by
    have hcases := State.parse_cases h
    rcases hp with rfl | rfl <;> simpa using hcases
  obtain ⟨hin, hroom⟩ := hbody
  rw [State.parse_of_inBody (State.busy_of_parse h) hin, State.bodyParse, if_pos hroom, Option.some.injEq] at h
  exact ⟨hroom, h.symm⟩

theorem State.literal_of_parse {s : State} (h : s.parse = some .literal) :
    s.cnt.toNat < lenUnits s.w ∧ s.m = true := by
  simpa using State.room_and_m_of_parse h (.inl rfl)

theorem State.run_of_parse {s : State} (h : s.parse = some .run) : s.cnt.toNat < lenUnits s.w ∧ s.m = false := by
  simpa using State.room_and_m_of_parse h (.inr rfl)

/-- A count of units up to `LEN` fits the register (R8, R19). -/
theorem State.toNat_cnt_add {s : State} {a : Nat} (h : s.cnt.toNat + a ≤ lenUnits s.w) :
    (s.cnt + BitVec.ofNat 13 a).toNat = s.cnt.toNat + a := by
  have hlen := s.lenUnits_le
  rw [BitVec.toNat_add, BitVec.toNat_ofNat]
  omega

theorem lenUnits_eq (w : Nat) : lenUnits w = 32 * (w * w) := Nat.mul_comm ..

/-! ### PMODE -/

/-- Settles O17: the plane's stage is one of two, and opening it is all either code does. -/
theorem pmodeOpensThePlane : Obligations.PmodeOpensThePlane := by
  intro s hparse
  have hstage : s.stage = .planeA .start ∨ s.stage = .planeB .start := by simpa using State.parse_cases hparse
  have hexec : exec .pmodeRun s = .next (s.openPlane false) ∧ exec .pmodeLit s = .next (s.openPlane true) :=
    ⟨State.inPlace_of_parse hparse _, State.inPlace_of_parse hparse _⟩
  rcases hstage with hs | hs
  · refine ⟨.planeA .body, .inl ⟨hs, rfl⟩, ?_⟩
    simpa [State.openPlane, Stage.body, hs] using hexec
  · refine ⟨.planeB .body, .inr ⟨hs, rfl⟩, ?_⟩
    simpa [State.openPlane, Stage.body, hs] using hexec

/-! ### Literal groups -/

/-- A literal group of value 1 to 3 appends a unit (R78). -/
theorem exec_of_literalValue {s : State} {i : Instr} {v : BitVec 2} (hparse : s.parse = some .literal)
    (hi : literalValue i = some v) : exec i s = .next (s.appendLiteral v) := by
  cases i with
  | lit1 | lit2 | lit3 => cases hi; exact State.inPlace_of_parse hparse _
  | _ => cases hi

/-- The unit goes where the count stands (R78). -/
theorem State.rawCells_appendLiteral (s : State) (g : BitVec 2) (sl : Bool) :
    (s.appendLiteral g).rawCells sl = (s.writeRaw s.slot s.cnt.toNat g).rawCells sl := rfl

theorem State.rawUnit_appendLiteral (s : State) (g : BitVec 2) (j : Nat) :
    (s.appendLiteral g).rawUnit s.slot j = if j = s.cnt.toNat then g else s.rawUnit s.slot j := by
  have h := s.rawUnit_writeRaw s.slot s.slot s.cnt.toNat j g
  simp only [true_and] at h
  exact h

/-- Settles O18: the unit is stored at the count, which leaves room for it in the register. -/
theorem literalUnitsAppend : Obligations.LiteralUnitsAppend := by
  intro s i v hparse hi
  obtain ⟨hroom, -⟩ := State.literal_of_parse hparse
  refine ⟨_, exec_of_literalValue hparse hi, rfl, rfl, State.toNat_cnt_add (a := 1) hroom, ?_,
    s.rawUnit_appendLiteral v, ?_⟩
  · rw [← lenUnits_eq]; rfl
  · rw [State.rawCells_appendLiteral, State.rawCells_writeRaw]
    simp

/-- Settles O19: at a literal group the sub-pass is a literal one, so inverting `m` clears it. -/
theorem literalEndSwitchesToRun : Obligations.LiteralEndSwitchesToRun := by
  intro s hparse
  obtain ⟨-, hm⟩ := State.literal_of_parse hparse
  have hexec : exec .litEnd s = .next { s.nextSubPass with g := 0 } := State.inPlace_of_parse hparse _
  simpa [State.nextSubPass, hm] using hexec

/-! ### Run codes -/

theorem exec_runCode {k : Nat} (hk : k < 16) (x : BitVec (k + 1)) (s : State) :
    exec (runCode k x) s = s.inPlace .run (.next (s.runPass k x)) := by
  cases k, hk using unaryCount_cases <;> rfl

/-- RUNBASE is the closed form of R62 (R24). -/
theorem toNat_runBase {k : Nat} (hk : k < 16) : (runBase k).toNat = 2 ^ (k + 1) - 1 := by
  cases k, hk using unaryCount_cases <;> rfl

/-- The longest run, 131070 units, fits the 17 bits of `n` (R62). -/
theorem toNat_runLength {k : Nat} (hk : k < 16) (x : BitVec (k + 1)) :
    (runLength k x).toNat = 2 ^ (k + 1) - 1 + x.toNat := by
  have hx := x.isLt
  have hpow : 2 ^ (k + 1) ≤ 2 ^ 16 := Nat.pow_le_pow_right (by decide) hk
  rw [runLength, BitVec.toNat_add, BitVec.toNat_setWidth, toNat_runBase hk]
  omega

/-- A run's units are zero from the count on, and every other unit of the slot stays (R81). -/
theorem State.rawUnit_appendZeros (s : State) (a j : Nat) :
    (s.appendZeros a).rawUnit s.slot j =
      if s.cnt.toNat ≤ j ∧ j < s.cnt.toNat + a then 0 else s.rawUnit s.slot j := by
  have hera : (s.appendZeros a).era = s.era := by rw [State.appendZeros_frame]
  simp only [State.rawUnit, State.read?_appendZeros, true_and, hera]
  split <;> rfl

/-- A run leaves the other slot as it was. -/
theorem State.rawCells_appendZeros_other (s : State) (a : Nat) :
    (s.appendZeros a).rawCells (!s.slot) = s.rawCells (!s.slot) := by
  refine loop_keeps (P := fun t => t.rawCells (!s.slot) = s.rawCells (!s.slot)) (fun i _ t ht => ?_) rfl
  rw [State.rawCells_writeRaw]
  simpa using ht

/-- A run pass is its zero units, with the registers of R81 written. -/
theorem State.runPass_eq {e : Nat} (s : State) (k : Nat) (x : BitVec e) {a : Nat}
    (ha : clampRun (runLength k x) (lenUnits s.w) s.cnt.toNat = a) :
    s.runPass k x = { s with
      k := BitVec.ofNat 5 k
      n := runLength k x
      cnt := s.cnt + BitVec.ofNat 13 a
      m := !s.m
      raw0 := (s.appendZeros a).raw0
      raw1 := (s.appendZeros a).raw1 } := by
  have hframe := s.appendZeros_frame a
  simp only [State.runPass, State.nextSubPass, ha]
  generalize s.appendZeros a = u at hframe ⊢
  rw [hframe]

/-- Settles O20: a run code is one of the family, and the clamp keeps its units inside the plane. -/
theorem runCodesAppendClampedZeros : Obligations.RunCodesAppendClampedZeros := by
  intro s i k n hparse hshape
  obtain ⟨hk, x, rfl, rfl⟩ := runShape_eq_some_iff.mp hshape
  obtain ⟨hroom, hm⟩ := State.run_of_parse hparse
  obtain ⟨a, ha⟩ : ∃ a, clampRun (runLength k x) (lenUnits s.w) s.cnt.toNat = a := ⟨_, rfl⟩
  have hclamp : a = min (2 ^ (k + 1) - 1 + x.toNat) (32 * (s.w * s.w) - s.cnt.toNat) := by
    rw [← ha, clampRun, toNat_runLength hk, lenUnits_eq]
  have hcnt : (s.cnt + BitVec.ofNat 13 a).toNat = s.cnt.toNat + a :=
    State.toNat_cnt_add (by rw [lenUnits_eq] at hroom ⊢; omega)
  have hexec : exec (runCode k x) s = .next (s.runPass k x) := by
    rw [exec_runCode hk, State.inPlace_of_parse hparse]
  rw [State.runPass_eq s k x ha] at hexec
  refine ⟨_, hexec, rfl, ?_, toNat_runLength hk x, by simp [hm], by rw [hcnt, hclamp], fun j => ?_,
    s.rawCells_appendZeros_other a⟩
  · rw [BitVec.toNat_ofNat]; omega
  · rw [hcnt, ← State.rawUnit_appendZeros]
    have hera : (s.appendZeros a).era = s.era := by rw [State.appendZeros_frame]
    unfold State.rawUnit
    rw [hera]
    rfl

/-- Settles O21: RUN.INVALID's meaning is the abort, which writes what the end of a decode writes. -/
theorem invalidRunAborts : Obligations.InvalidRunAborts := by
  intro s hparse
  exact ⟨State.abort .invalidRunLength { s with k := 16 }, State.inPlace_of_parse hparse _,
    rfl, rfl, rfl, rfl, rfl, rfl, rfl⟩

end Sys2Proof.Machine
end

section
/-! SUPPORT. The full plane (O25, O26): the packed bytes as an equation per index, R75, R87 to R89. -/

namespace Sys2Proof.Machine

/-! ### Writing a list of packed bytes -/

/-- The bytes written are those of the list; every other byte, and the other slot, stays (R88). -/
theorem State.packedByte_writePackedFrom (s : State) (sl sl' : Bool) (b c : Nat) (vs : List Byte) :
    (s.writePackedFrom sl b vs).packedByte sl' c =
      if sl' = sl ∧ b ≤ c ∧ c < b + vs.length then vs.getD (c - b) 0 else s.packedByte sl' c := by
  induction vs generalizing s b with
  | nil => rw [if_neg (by simp only [List.length_nil]; omega)]; rfl
  | cons v rest ih =>
    rw [State.writePackedFrom, ih, State.packedByte_writePacked, List.length_cons]
    rcases Nat.lt_trichotomy c b with hlt | rfl | hgt
    · rw [if_neg (by omega), if_neg (by omega), if_neg (by omega)]
    · have hin : c ≤ c ∧ c < c + (rest.length + 1) := by omega
      rw [if_neg (by omega), Nat.sub_self, List.getD_cons_zero]
      simp only [hin, and_true]
    · have hidx : c - b = (c - (b + 1)) + 1 := by omega
      have hne : c ≠ b := by omega
      have hrange : b + 1 ≤ c ∧ c < b + 1 + rest.length ↔ b ≤ c ∧ c < b + (rest.length + 1) := by omega
      simp only [hrange, hidx, hne, and_false, if_false, List.getD_cons_succ]

theorem State.packedCells_writePackedFrom_other (s : State) (sl : Bool) (b : Nat) (vs : List Byte) :
    (s.writePackedFrom sl b vs).packedCells (!sl) = s.packedCells (!sl) := by
  induction vs generalizing s b with
  | nil => rfl
  | cons v rest ih =>
    rw [State.writePackedFrom, ih, State.packedCells_writePacked]
    simp

/-- Packing needs no Gray carry. -/
theorem State.carry_writePackedFrom (s : State) (sl : Bool) (b : Nat) (vs : List Byte) :
    (s.writePackedFrom sl b vs).carry = s.carry := by
  induction vs generalizing s b with
  | nil => rfl
  | cons v rest ih => rw [State.writePackedFrom, ih]; rfl

/-! ### Where the units of a plane go -/

/-- The row and the column of an index in rows of length `m`. -/
theorem row_and_column {m x : Nat} (hm : 0 < m) (n : Nat) (hx : x < m) :
    (n * m + x) / m = n ∧ (n * m + x) % m = x :=
  (Nat.div_mod_unique hm).mpr ⟨by rw [Nat.add_comm, Nat.mul_comm], hx⟩

/-- Rows of one length, one after the other, are indexed by row and column. -/
theorem flatMap_range_map_range {α : Type} (f : Nat → Nat → α) (n : Nat) {m : Nat} (hm : 0 < m) :
    ((List.range n).flatMap fun y => (List.range m).map (f y)) =
      (List.range (n * m)).map fun i => f (i / m) (i % m) := by
  induction n with
  | zero => simp
  | succ n ih =>
    rw [List.range_succ, List.flatMap_append, ih, Nat.succ_mul, List.range_add, List.map_append]
    congr 1
    simp only [List.flatMap_singleton, List.map_map]
    refine List.map_congr_left fun x hx => ?_
    have hlt : x < m := List.mem_range.mp hx
    obtain ⟨hdiv, hmod⟩ := row_and_column hm n hlt
    simp only [Function.comp, hdiv, hmod]

/-- Groups of four units pack into one byte each (R88). -/
theorem packUnits_flatMap {ι : Type} (u : ι → Nat → RawUnit) (is : List ι) :
    packUnits (is.flatMap fun i => (List.range 4).map (u i)) = is.map fun i => u i 0 ++ u i 1 ++ u i 2 ++ u i 3 := by
  induction is with
  | nil => rfl
  | cons i rest ih =>
    rw [List.flatMap_cons, List.map_cons, ← ih]
    rfl

/-- The byte that packs column `x` of rows `4y` to `4y + 3` of RAW[slot] (R89). -/
def State.packedColumn (s : State) (slot : Bool) (y x : Nat) : Byte :=
  s.rawUnit slot ((4 * y + 0) * (8 * s.w) + x) ++ s.rawUnit slot ((4 * y + 1) * (8 * s.w) + x)
    ++ s.rawUnit slot ((4 * y + 2) * (8 * s.w) + x) ++ s.rawUnit slot ((4 * y + 3) * (8 * s.w) + x)

/-- The bytes of a packed plane, row by row (R87, R88). -/
theorem State.packUnits_deinterleave (s : State) (slot : Bool) :
    packUnits (s.deinterleave slot) =
      (List.range s.w).flatMap fun y => (List.range (8 * s.w)).map (s.packedColumn slot y) := by
  have hunit (y x i : Nat) : (y * 4 + i) * s.w * 8 + x = (4 * y + i) * (8 * s.w) + x := by
    rw [Nat.mul_comm y, Nat.mul_assoc, Nat.mul_comm s.w]
  have hpairs : s.deinterleave slot =
      ((List.range s.w).flatMap fun y => (List.range (8 * s.w)).map (Prod.mk y)).flatMap fun p =>
        (List.range 4).map fun i => s.rawUnit slot ((4 * p.1 + i) * (8 * s.w) + p.2) := by
    simp only [State.deinterleave, List.flatMap_assoc, List.flatMap_map, hunit]
  rw [hpairs, packUnits_flatMap, List.map_flatMap]
  simp only [List.map_map]
  rfl

/-- Byte `y*8W + x` of the packed plane packs its column (R89). -/
theorem State.packedByte_packPlane (s : State) (slot : Bool) {y x : Nat} (hy : y < s.w) (hx : x < 8 * s.w) :
    (s.packPlane slot).packedByte slot (y * (8 * s.w) + x) = s.packedColumn slot y x := by
  have hpos : 0 < 8 * s.w := by omega
  have hin : y * (8 * s.w) + x < s.w * (8 * s.w) := by
    calc y * (8 * s.w) + x < y * (8 * s.w) + 8 * s.w := Nat.add_lt_add_left hx _
      _ = (y + 1) * (8 * s.w) := (Nat.succ_mul ..).symm
      _ ≤ s.w * (8 * s.w) := Nat.mul_le_mul_right _ hy
  obtain ⟨hdiv, hmod⟩ := row_and_column hpos y hx
  rw [State.packPlane, State.packUnits_deinterleave, flatMap_range_map_range _ _ hpos,
    State.packedByte_writePackedFrom, if_pos (by simpa using hin)]
  simp [List.getD_eq_getElem?_getD, hin, hdiv, hmod]

/-! ### Bytes of four units -/

/-- Four units side by side, the first in the top bits (R88, R89). -/
theorem append_units_eq_or (u0 u1 u2 u3 : RawUnit) :
    u0 ++ u1 ++ u2 ++ u3
      = (u0.setWidth 8 <<< 6) ||| (u1.setWidth 8 <<< 4) ||| (u2.setWidth 8 <<< 2) ||| u3.setWidth 8 := by
  ext i hi
  simp only [BitVec.getElem_append, BitVec.getElem_or, BitVec.getElem_shiftLeft, BitVec.getElem_setWidth]
  grind

/-- Unit `i` of a byte stands at bits `7 - 2i` and `6 - 2i` (R89). -/
theorem extractLsb'_append_units (u : Nat → RawUnit) {i : Nat} (hi : i < 4) :
    (u 0 ++ u 1 ++ u 2 ++ u 3 : Byte).extractLsb' (6 - 2 * i) 2 = u i := by
  match i, hi with
  | 0, _ | 1, _ | 2, _ | 3, _ =>
    ext j hj
    simp only [BitVec.getElem_extractLsb', BitVec.getLsbD_append]
    grind

/-- Unit `r` of a plane of width `w` stands in row `r / 8w` and column `r mod 8w` (R89). -/
theorem unit_row_and_column {w r : Nat} (hr : r < 32 * (w * w)) :
    r / (32 * w) < w ∧ r % (8 * w) < 8 * w
      ∧ (4 * (r / (32 * w)) + r / (8 * w) % 4) * (8 * w) + r % (8 * w) = r := by
  have hw : 0 < w := by
    rcases Nat.eq_zero_or_pos w with h | h
    · simp [h] at hr
    · exact h
  have hrow : r / (32 * w) = r / (8 * w) / 4 := by
    have hprod : 32 * w = 8 * w * 4 := by omega
    rw [Nat.div_div_eq_div_mul, hprod]
  refine ⟨(Nat.div_lt_iff_lt_mul (by omega)).mpr (by rwa [Nat.mul_left_comm]), Nat.mod_lt _ (by omega), ?_⟩
  rw [hrow, Nat.div_add_mod, Nat.mul_comm, Nat.div_add_mod]

/-- Settles O25: each byte packs its column, and each unit is one of its column's four. -/
theorem packedPlaneClosedForm : Obligations.PackedPlaneClosedForm := by
  intro s slot
  refine ⟨fun y x hy hx => ?_, fun r hr => ?_⟩
  · rw [State.packedByte_packPlane s slot hy hx, State.packedColumn, append_units_eq_or]
  · obtain ⟨hy, hx, hindex⟩ := unit_row_and_column hr
    have hunit := extractLsb'_append_units
      (fun i => s.rawUnit slot ((4 * (r / (32 * s.w)) + i) * (8 * s.w) + r % (8 * s.w)))
      (Nat.mod_lt (r / (8 * s.w)) (by decide))
    rw [State.packedByte_packPlane s slot hy hx]
    simp only [hindex] at hunit
    exact hunit

/-! ### The step that packs a plane -/

/-- Packing changes P[slot] and nothing else (R75). -/
theorem State.packPlane_frame (s : State) (slot : Bool) :
    s.packPlane slot = { s with packed0 := (s.packPlane slot).packed0, packed1 := (s.packPlane slot).packed1 } := by
  have hframe := (OnlyPacks.packPlane s slot).frame
  have hcarry : (s.packPlane slot).carry = s.carry := State.carry_writePackedFrom ..
  unfold SameButPacked at hframe
  rwa [hcarry] at hframe

/-- Bytes from `S(W)` on are not packed (R88). -/
theorem State.packedByte_packPlane_beyond (s : State) (slot : Bool) {b : Nat} (hb : packedBytes s.w ≤ b) :
    (s.packPlane slot).packedByte slot b = s.packedByte slot b := by
  have hlen : (packUnits (s.deinterleave slot)).length = packedBytes s.w := by
    rw [packUnits_length, State.deinterleave_length]
    unfold lenUnits packedBytes
    omega
  rw [State.packPlane, State.packedByte_writePackedFrom, if_neg (by omega)]

/-- The engine's turn at a stage that reads no stream is that stage's work (R112). -/
theorem step_of_work {s : State} (hturn : s.engineNext = true) (hb : s.status = .busy) (hparse : s.parse = none) :
    step s = s.pop.engineWork := by
  have hbusy : s.pop.status = .busy := hb
  have hnone : s.pop.parse = none := hparse
  have hfetch : s.fetch = .work s.pop := by rw [State.pop_of_engineNext hturn, State.fetchEngine, if_pos hbusy, hnone]
  rw [step, hfetch]

theorem State.writePackedFrom_pop (s : State) (sl : Bool) (b : Nat) (vs : List Byte) :
    s.pop.writePackedFrom sl b vs = (s.writePackedFrom sl b vs).pop := by
  induction vs generalizing s b with
  | nil => rfl
  | cons v rest ih => exact ih (s.writePacked sl b v) (b + 1)

/-- The event taken is no part of a plane. -/
theorem State.packPlane_pop (s : State) (slot : Bool) : s.pop.packPlane slot = (s.packPlane slot).pop :=
  s.writePackedFrom_pop slot 0 _

/-- A full plane's work is to pack it; MODE follows the first plane and MERGE the second (R75, R112). -/
theorem State.engineWork_of_inBody {s : State} (hs : s.stage.inBody) :
    ∃ g, ((s.stage = .planeA .body ∧ g = .mode) ∨ (s.stage = .planeB .body ∧ g = .merge))
      ∧ s.engineWork = .next { s.packPlane s.slot with stage := g } := by
  rcases hs with hs | hs
  · exact ⟨.mode, .inl ⟨hs, rfl⟩, by simp only [State.engineWork, hs]⟩
  · exact ⟨.merge, .inr ⟨hs, rfl⟩, by simp only [State.engineWork, hs]⟩

/-- Settles O26: the engine's turn at a full plane packs it and changes nothing else but the stage. -/
theorem fullPlaneIsPacked : Obligations.FullPlaneIsPacked := by
  intro s hturn hb hbody hparse
  obtain ⟨g, hg, hwork⟩ := State.engineWork_of_inBody (s := s.pop) hbody
  refine ⟨_, (step_of_work hturn hb hparse).trans hwork, hg, ?_, fun b _ => ?_, fun b hbeyond => ?_, ?_⟩
  · rw [State.packPlane_frame]
  · rw [State.packPlane_pop]
    rfl
  · have hsize : packedBytes s.w = 8 * (s.w * s.w) := Nat.mul_comm ..
    exact s.pop.packedByte_packPlane_beyond s.slot (Nat.le_trans (Nat.le_of_eq hsize) hbeyond)
  · exact State.packedCells_writePackedFrom_other s.pop s.slot 0 _

end Sys2Proof.Machine
end

section
/-! SUPPORT. The fetch of a run code as ReadUnary and then ReadInt (O11): R71, R72, R81. The fetch looks at 32 bits at
once, so each answer of the two readers is traced back to those bits. -/

namespace Sys2Proof

/-- A unary count is followed by its extra bits (R62, R72). -/
theorem decodeRun_of_count {k : Nat} (hk : k < 16) (tail : List Bool) :
    decodeRun (List.replicate k true ++ false :: tail) = decodeField (k + 1) (runCode k) tail := by
  have hunary : takeUnary 0 (List.replicate k true ++ false :: tail) = some (.count k, tail) := by
    rw [takeUnary_replicate_append (by omega), Nat.zero_add, takeUnary]
  simp only [decodeRun, hunary, decodeExtra_eq hk]

/-- Where ReadUnary finds no end, the run decoder finds no code word (R65, R72). -/
theorem decodeRun_of_takeUnary_none {bits : List Bool} (h : takeUnary 0 bits = none) :
    decodeRun bits = .reject .endOfStream := by
  simp only [decodeRun, h]

theorem codeLength_runCode {k : Nat} (hk : k < 16) (x : BitVec (k + 1)) :
    (runCode k x).codeLength = k + 1 + (k + 1) := by
  rw [← encode_length, encode_runCode hk, encodeRun_length]
  omega

namespace Machine

/-! ### Looking ahead past a count -/

theorem State.consume_withK (n : Nat) (k : BitVec 5) (s : State) :
    State.consume n { s with k := k } = { s.consume n with k := k } := by
  induction n generalizing s with
  | zero => rfl
  | succ n ih =>
    simp only [State.consume, State.readBit_withK]
    cases s.readBit with
    | none => rfl
    | some p => simp [ih]

theorem State.peekBits_withK (n : Nat) (k : BitVec 5) (s : State) :
    State.peekBits n { s with k := k } = s.peekBits n := by
  induction n generalizing s with
  | zero => rfl
  | succ n ih =>
    simp only [State.peekBits, State.readBit_withK]
    cases s.readBit with
    | none => rfl
    | some p => simp [ih]

theorem State.consume_withK_self (n : Nat) (s : State) : { s.consume n with k := s.k } = s.consume n := by
  rw [← State.consume_withK]

/-- The bits seen are those before a point and those seen from it. -/
theorem State.peekBits_add (m n : Nat) (s : State) :
    s.peekBits (m + n) = s.peekBits m ++ (s.consume m).peekBits n := by
  induction m generalizing s with
  | zero => simp [State.peekBits, State.consume]
  | succ m ih =>
    rw [Nat.succ_add]
    cases h : s.readBit with
    | none =>
      cases n with
      | zero => simp [State.peekBits, h]
      | succ n => simp [State.peekBits, State.consume, h]
    | some p => simp [State.peekBits, State.consume, h, ih]

/-- Where fewer bits are left than asked for, asking for more shows and consumes the same. -/
theorem State.peekBits_of_short {n m : Nat} {s : State} (hnm : n ≤ m) (h : (s.peekBits n).length < n) :
    s.peekBits m = s.peekBits n ∧ s.consume m = s.consume n := by
  have hsame : s.peekBits m = s.peekBits n := by
    have htake := s.take_peekBits hnm
    rw [← htake, List.length_take] at h
    rw [← htake, List.take_of_length_le (by omega)]
  refine ⟨hsame, ?_⟩
  rw [← State.consume_length_peekBits m, hsame, State.consume_length_peekBits]

/-- After a count the run decoder reads the extra bits from the bits after the count's zero bit (R62). -/
theorem State.decode_run_of_count {s : State} {k : Nat} {rest : List Bool} (hk : k < 16)
    (h : s.peekBits 16 = List.replicate k true ++ false :: rest) :
    decode .run (s.peekBits window) = decodeField (k + 1) (runCode k) ((s.consume (k + 1)).peekBits (31 - k)) := by
  have hcount : s.peekBits (k + 1) = List.replicate k true ++ [false] := by
    rw [← State.take_peekBits hk, h, List.take_append, List.length_replicate, List.take_replicate]
    simp
  have hwindow : window = k + 1 + (31 - k) := by unfold window; omega
  rw [hwindow, State.peekBits_add, hcount, List.append_assoc]
  exact decodeRun_of_count hk _

/-! ### The readers against the fetch -/

/-- ReadInt does not look at `k` (R71). -/
theorem State.readInt_withK {n : Nat} (hn : n ≤ 16) (k : BitVec 5) (s : State) :
    State.readInt n { s with k := k } = ((s.readInt n).1, { s.consume n with k := k }) := by
  rw [readIntIsBigEndian _ n hn, readIntIsBigEndian _ n hn, State.peekBits_withK, State.consume_withK]
  split <;> rfl

/-- The extra bits are there: the fetch answers the run code (R62, R81). -/
theorem State.fetchCode_run_of_extra {s : State} {k : Nat} {rest tail : List Bool} {v : BitVec (k + 1)} (hk : k < 16)
    (h : s.peekBits 16 = List.replicate k true ++ false :: rest)
    (hextra : takeInt (k + 1) ((s.consume (k + 1)).peekBits (k + 1)) = some (v, tail)) :
    s.fetchCode .run = .instr (runCode k v) ((s.consume (k + 1)).consume (k + 1)) := by
  have hmore : 31 - k = k + 1 + (30 - 2 * k) := by omega
  have hdec := State.decode_run_of_count hk h
  rw [hmore, State.peekBits_add, takeInt_eq_some_iff.mp hextra, List.append_assoc,
    decodeField_eq_code_iff.mpr ⟨v, rfl, rfl⟩] at hdec
  rw [State.fetchCode_of_decode_code (Nat.le_refl _) hdec, codeLength_runCode hk, State.consume_add]

/-- The stream ends in the extra bits: so does the fetch (R71, R126). -/
theorem State.fetchCode_run_of_short_extra {s : State} {k : Nat} {rest : List Bool} (hk : k < 16)
    (h : s.peekBits 16 = List.replicate k true ++ false :: rest)
    (hextra : takeInt (k + 1) ((s.consume (k + 1)).peekBits (k + 1)) = none) :
    s.fetchCode .run = .outOfData ((s.consume (k + 1)).consume (k + 1)) := by
  obtain ⟨hpeek, hconsume⟩ := State.peekBits_of_short (m := 31 - k) (by omega) (takeInt_eq_none_iff.mp hextra)
  have hdec := State.decode_run_of_count hk h
  rw [hpeek, decodeField, hextra] at hdec
  have hwindow : window = k + 1 + (31 - k) := by unfold window; omega
  rw [State.fetchCode_of_decode_reject (by simp) (Nat.le_refl _) hdec, hwindow, State.consume_add, hconsume]

/-- Sixteen one bits are RUN.INVALID whatever follows them (R72, R83). -/
theorem State.fetchCode_run_of_sixteen_ones {s : State} {rest : List Bool}
    (h : s.peekBits 16 = List.replicate 16 true ++ rest) :
    s.fetchCode .run = .instr .runInvalid (s.consume 16) := by
  have hdec : decode .run (s.peekBits (16 + 16)) = .code .runInvalid (rest ++ (s.consume 16).peekBits 16) := by
    rw [State.peekBits_add, h, List.append_assoc]
    exact decodeRun_invalid _
  exact State.fetchCode_of_decode_code (Nat.le_refl _) hdec

/-- The stream ends in the count: so does the fetch (R72, R126). -/
theorem State.fetchCode_run_of_short_count {s : State} (hlen : (s.peekBits 16).length < 16)
    (h : takeUnary 0 (s.peekBits 16) = none) : s.fetchCode .run = .outOfData (s.consume 16) := by
  obtain ⟨hpeek, hconsume⟩ := State.peekBits_of_short (m := window) (by decide) hlen
  have hdec : decode .run (s.peekBits window) = .reject .endOfStream := by
    rw [hpeek]
    exact decodeRun_of_takeUnary_none h
  rw [State.fetchCode_of_decode_reject (by simp) (Nat.le_refl _) hdec, hconsume]

/-- Settles O11: after a count ReadInt's two answers, and the two ways ReadUnary fails. -/
theorem runFetchIsReadUnaryThenReadInt : Obligations.RunFetchIsReadUnaryThenReadInt := by
  intro s
  rcases takeUnary_cases (j := 0) (by decide) (s.peekBits 16) with ⟨k, rest, hk, hbits, _⟩ | ⟨rest, hbits, _⟩
    | ⟨hlen, h⟩
  · rw [Nat.zero_add] at hk
    have hcount : (BitVec.ofNat 5 k).toNat = k := by rw [BitVec.toNat_ofNat]; omega
    have hself : { (s.consume (k + 1)).consume (k + 1) with k := s.k } = (s.consume (k + 1)).consume (k + 1) := by
      rw [← State.consume_add, State.consume_withK_self]
    rw [State.readUnary_of_count hk hbits]
    simp only [hcount]
    rw [State.readInt_withK (by omega), readIntIsBigEndian _ (k + 1) (by omega)]
    cases hextra : takeInt (k + 1) ((s.consume (k + 1)).peekBits (k + 1)) with
    | none =>
      simp only [hself]
      exact State.fetchCode_run_of_short_extra hk hbits hextra
    | some p =>
      obtain ⟨v, tail⟩ := p
      have hv : (v.setWidth 16).toNat = v.toNat := BitVec.toNat_setWidth_of_le (by omega)
      simp only [hself, hv]
      exact ⟨_, State.fetchCode_run_of_extra hk hbits hextra, runShape_runCode hk v⟩
  · rw [State.readUnary_of_sixteen_ones hbits]
    simp only [State.consume_withK_self]
    exact State.fetchCode_run_of_sixteen_ones hbits
  · rw [State.readUnary_of_end hlen (eq_replicate_of_takeUnary_none h)]
    simp only [State.consume_withK_self]
    exact State.fetchCode_run_of_short_count hlen h

end Machine
end Sys2Proof
end

section
/-! SUPPORT. The end of every decode (O39): each step of a BUSY engine takes an event, bits of the stream, or a stage
away from what is left, R86, R123. -/

namespace Sys2Proof.Machine

/-! ### What is left of a decode -/

/-- The steps of a decode that read no code word: the two packings, MERGE, OUTPUT and FINISH, from a stage on (R112). -/
def Stage.workLeft : Stage → Nat
  | .idle => 0
  | .finish => 1
  | .output => 2
  | .merge => 3
  | .planeB _ => 4
  | .mode => 4
  | .planeA _ => 5
  | .header _ => 5

/-- A bound on the steps of a decode still to come: the events, the bits of the stream, and the stages left. -/
def State.stepsLeft (s : State) : Nat := s.pending.length + (s.streamBits - s.bitPos) + s.stage.workLeft

theorem Stage.workLeft_le (g : Stage) : g.workLeft ≤ 5 := by
  cases g <;> simp [Stage.workLeft]

theorem Stage.workLeft_pos {g : Stage} (h : g ≠ .idle) : 0 < g.workLeft := by
  cases g <;> simp_all [Stage.workLeft]

theorem State.stepsLeft_le (s : State) : s.stepsLeft ≤ s.pending.length + s.streamBits + 5 := by
  have := s.stage.workLeft_le
  unfold State.stepsLeft
  omega

/-- No code word goes back to an earlier stage (R112). -/
theorem Advance.workLeft_le {s t : State} (h : Advance s t) : t.stage.workLeft ≤ s.stage.workLeft := by
  cases h with
  | width1 _ hp | width2 hp | order _ hp | mode _ _ hp =>
    have hs := State.parse_cases hp
    simp only [reduceCtorEq, false_and, true_and, false_or, or_false, or_self] at hs
    simp [hs, Stage.workLeft]
  | openPlane m hp =>
    have hs : s.stage = .planeA .start ∨ s.stage = .planeB .start := by simpa using State.parse_cases hp
    rcases hs with hs | hs <;> simp [hs, Stage.body, Stage.workLeft]
  | fill _ hfill =>
    obtain ⟨_, _, _, _, _, _, _, rfl⟩ := hfill.exists_fields
    exact Nat.le_refl _

/-- The work of a stage leads to a later one (R112). -/
theorem WorkStep.workLeft_lt {s t : State} (h : WorkStep s t) : t.stage.workLeft < s.stage.workLeft := by
  cases h with
  | packFirst hs | packSecond hs | output hs | finish hs => simp [hs, Stage.workLeft]
  | merge u _ hs => simp [hs, Stage.workLeft]

/-! ### What a step takes away -/

/-- A code word that goes on with the decode keeps STATUS and the stages' order; every other one ends the decode, but
for a START command, which does nothing while BUSY. -/
theorem CodeStep.workLeft_le {s t : State} (h : CodeStep s t) (hb : s.status = .busy) (ht : t.status = .busy) :
    t.stage.workLeft ≤ s.stage.workLeft := by
  cases h with
  | advance hadv => exact hadv.workLeft_le
  | mismatch _ | invalidRun => simp at ht
  | start hnb => exact absurd hb hnb
  | startIgnored _ => exact Nat.le_refl _

theorem CodeStep.pending {s t : State} (h : CodeStep s t) : t.pending = s.pending := by
  cases h with
  | advance hadv =>
    cases hadv with
    | fill _ hfill => rw [hfill.frame]
    | _ => rfl
  | mismatch _ | invalidRun | start _ | startIgnored _ => rfl

theorem WorkStep.pending {s t : State} (h : WorkStep s t) : t.pending = s.pending := by
  cases h with
  | packFirst _ | packSecond _ => rw [(OnlyPacks.packPlane s s.slot).frame]
  | merge u hu _ => rw [(OnlyPacks.merge hu).frame]
  | output _ => rw [(OnlyOut.output s).frame]
  | finish _ => rfl

/-- While BUSY a host access leaves the events to come. -/
theorem State.hostEffect_busy_pending {s : State} (hb : s.status = .busy) (a : Access) :
    (s.hostEffect a).pending = s.pending := by
  cases h : isRead a with
  | true => exact (Sees.hostEffect s h).pending
  | false => rw [State.hostEffect_write_of_busy hb h]

/-- Every step of a BUSY machine takes one event, where there is one. -/
theorem StepBy.pending {s t : State} (h : StepBy s t) (hb : s.status = .busy) : t.pending = s.pending.tail := by
  have hconsume (n : Nat) : (s.pop.consume n).pending = s.pending.tail := by rw [State.consume_frame]; rfl
  cases h with
  | code n _ hcode => exact hcode.pending.trans (hconsume n)
  | endOfStream n _ => exact hconsume n
  | work _ hwork => exact hwork.pending
  | wait => rfl
  | command hcode => exact hcode.pending
  | access a _ => exact State.hostEffect_busy_pending (s := s.pop) hb a
  | reset _ => rfl

theorem SameStream.streamBits {s t : State} (h : SameStream s t) : t.streamBits = s.streamBits := by
  simp only [State.streamBits, h.inLen]

/-- A code word that goes on with the decode has consumed at least one bit (R57). -/
theorem stepsLeft_lt_of_code {s t : State} {i : Instr} {rest : List Bool} {p : ParseState} (hb : s.status = .busy)
    (hdec : decode p (s.peekBits window) = .code i rest) (h : exec i (s.consume i.codeLength) = .next t)
    (ht : t.status = .busy) : t.stepsLeft < s.stepsLeft := by
  have hcode := exec_codeStep h
  have hframe := s.consume_frame i.codeLength
  have hbusy : (s.consume i.codeLength).status = .busy := by rw [hframe]; exact hb
  have hstage : (s.consume i.codeLength).stage = s.stage := by rw [hframe]
  have hpending : (s.consume i.codeLength).pending = s.pending := by rw [hframe]
  have hwork := hcode.workLeft_le hbusy ht
  have hsame := hcode.sameStream hbusy
  have hpos : 1 ≤ i.codeLength := (codeLength_statement i).2.1
  have hleft : 0 < s.streamBits - s.bitPos := by
    have hwindow := s.length_peekBits window
    rw [(decode_eq_code_iff.mp hdec).2, List.length_append, encode_length] at hwindow
    omega
  have hseen := s.length_peekBits i.codeLength
  unfold State.stepsLeft
  rw [hcode.pending, hpending, hsame.streamBits, hsame.bitPos, State.streamBits_consume, State.bitPos_consume_eq]
  rw [hstage] at hwork
  omega

/-- The engine's turn in a decode that goes on takes bits of the stream or a stage. -/
theorem stepsLeft_lt_of_engine {s t : State} (hb : s.status = .busy) (hturn : s.engineNext = true)
    (h : step s = .next t) (ht : t.status = .busy) : t.stepsLeft < s.pop.stepsLeft := by
  unfold step at h
  rw [State.pop_of_engineNext hturn] at h
  rcases s.pop.fetchEngine_cases with ⟨hnb, _⟩ | ⟨_, _, he⟩ | ⟨p, hp, he⟩
  · exact absurd hb hnb
  · rw [he] at h
    have hwork := workStep_of_engineWork h
    have hlt := hwork.workLeft_lt
    have hsame := hwork.sameStream
    unfold State.stepsLeft
    rw [hwork.pending, hsame.streamBits, hsame.bitPos]
    omega
  · rw [he] at h
    cases hdec : decode p (s.pop.peekBits window) with
    | code i rest =>
      rw [State.fetchCode_of_decode_code (Nat.le_refl _) hdec] at h
      exact stepsLeft_lt_of_code (s := s.pop) hb hdec h ht
    | reject why =>
      rw [State.fetchCode_of_decode_reject (State.parse_ne_ctrlWrite hp) (Nat.le_refl _) hdec] at h
      cases h
      simp at ht

theorem State.stepsLeft_pop_le (s : State) : s.pop.stepsLeft ≤ s.stepsLeft := by
  have hpending : s.pop.pending.length ≤ s.pending.length := by simp [State.pop]
  unfold State.stepsLeft
  exact Nat.add_le_add_right (Nat.add_le_add_right hpending _) _

/-- A host access while BUSY takes its event. -/
theorem stepsLeft_lt_of_access {s t : State} {a : Access} {rest : List Event} (hb : s.status = .busy)
    (hpending : s.pending = .access a :: rest) (hwf : a.wf = true) (h : step s = .next t) :
    t.stepsLeft < s.stepsLeft := by
  obtain ⟨u, hu, hrest, hsame⟩ := busyAccessesChangeNothing s a rest hb hpending hwf
  rw [hu] at h
  cases h
  have hstream := SameStream.sameButHost hsame
  have hstage : t.stage = s.stage := by rw [hsame]
  unfold State.stepsLeft
  rw [hrest, hpending, hstream.streamBits, hstream.bitPos, hstage, List.length_cons]
  omega

/-- While the decode goes on, every step leaves fewer steps to come. -/
theorem stepsLeft_lt_of_step {s t : State} (hb : s.status = .busy) (hhost : s.hostInInterface)
    (h : step s = .next t) (ht : t.status = .busy) : t.stepsLeft < s.stepsLeft := by
  match hpending : s.pending with
  | [] | .engine :: _ =>
    have hturn : s.engineNext = true := by simp [State.engineNext, hpending]
    exact Nat.lt_of_lt_of_le (stepsLeft_lt_of_engine hb hturn h ht) s.stepsLeft_pop_le
  | .access a :: rest => exact stepsLeft_lt_of_access hb hpending (hhost a (by simp [hpending])) h
  | .reset :: _ =>
    rw [step_of_reset (by simp [hpending])] at h
    cases h
    simp at ht

/-! ### Where a decode ends -/

theorem CodeStep.status {s t : State} (h : CodeStep s t) (hb : s.status = .busy) :
    t.status = .busy ∨ t.status = .error := by
  cases h with
  | advance hadv => exact .inl (hadv.decodesOn.status.trans hb)
  | mismatch _ | invalidRun => exact .inr rfl
  | start _ => exact .inl rfl
  | startIgnored _ => exact .inl hb

theorem WorkStep.status {s t : State} (h : WorkStep s t) (hb : s.status = .busy) :
    t.status = .busy ∨ t.status = .done := by
  rcases h.decodesOn_or_finish with hon | ⟨_, rfl⟩
  · exact .inl (hon.status.trans hb)
  · exact .inr rfl

/-- A BUSY machine that is not reset stays BUSY or ends its decode in DONE or ERROR (R123). -/
theorem StepBy.status {s t : State} (h : StepBy s t) (hb : s.status = .busy) (hreset : .reset ∉ s.pending) :
    t.status = .busy ∨ t.status = .done ∨ t.status = .error := by
  cases h with
  | code n _ hcode => exact (hcode.status (by rw [State.consume_frame]; exact hb)).imp_right .inr
  | endOfStream _ _ => exact .inr (.inr rfl)
  | work _ hwork => exact (hwork.status hb).imp_right .inl
  | wait => exact .inl hb
  | command hcode => exact (hcode.status hb).imp_right .inr
  | access a _ =>
    rw [State.hostEffect_busy (s := s.pop) hb a]
    exact .inl hb
  | reset hr => exact absurd (List.mem_of_head? hr) hreset

/-- A decode ends within the steps left to it. -/
theorem decode_ends (m : Nat) {s : State} (hm : s.stepsLeft ≤ m) (hinv : Inv s) (hb : s.status = .busy)
    (hhost : s.hostInInterface) :
    ∃ n t, n ≤ m ∧ whileBusy n s t ∧ t.status ≠ .busy
      ∧ (.reset ∉ s.pending → t.status = .done ∨ t.status = .error) := by
  induction m generalizing s with
  | zero =>
    have hpos := Stage.workLeft_pos (hinv.busy_iff.mp hb)
    unfold State.stepsLeft at hm
    omega
  | succ m ih =>
    obtain ⟨t, hstep⟩ : ∃ t, step s = .next t := by
      rcases onlyAccessesOutsideTheInterfaceStop s hinv with h | ⟨a, rest, hpending, hwf, _⟩
      · exact h
      · simp [hhost a (by simp [hpending])] at hwf
    have hst := stepBy_of_step hstep
    have htail {e : Event} (he : e ∈ t.pending) : e ∈ s.pending := by
      rw [hst.pending hb] at he
      exact List.mem_of_mem_tail he
    by_cases ht : t.status = .busy
    · have hlt := stepsLeft_lt_of_step hb hhost hstep ht
      obtain ⟨n, u, hn, hrun, hu, hend⟩ :=
        ih (by omega) (stepKeepsTheInvariant s t hinv hstep) ht (fun a ha => hhost a (htail ha))
      exact ⟨n + 1, u, Nat.succ_le_succ hn, ⟨hb, t, hstep, hrun⟩, hu, fun hreset => hend (hreset ∘ htail)⟩
    · have hrun : whileBusy 1 s t := ⟨hb, t, hstep, rfl⟩
      exact ⟨1, t, Nat.succ_pos m, hrun, ht, fun hreset => (hst.status hb hreset).resolve_left ht⟩

/-- Settles O39: the steps left count down to the end of the decode. -/
theorem everyDecodeEnds : Obligations.EveryDecodeEnds := by
  intro s hinv hb hhost
  have hle : s.stepsLeft ≤ s.pending.length + s.streamBits + 6 := Nat.le_succ_of_le s.stepsLeft_le
  exact decode_ends _ hle hinv hb hhost

end Sys2Proof.Machine
end

section
/-! SUPPORT. The Gray transform (O27 to O29): the byte step and the encoder as inverses of each other, the bytes that
GrayPlane leaves as an equation per row and column, and from it the encoder's two equations and the running XOR, R90 to
R94. -/

namespace Sys2Proof.Machine

/-! ### The byte step and its inverse -/

/-- The differential code of a nibble under the decoded bit above it (R94). -/
def grayEncodeNibble (c : Bool) (d : Nibble) : Nibble :=
  d ^^^ ((d >>> 1) ||| (BitVec.ofBool c ++ 0#3))

/-- Both rows of the table decode the differential code (R25, R90). -/
theorem grayEncodeNibble_gray : ∀ (c : Bool) (v : Nibble), grayEncodeNibble c (gray c v) = v := by decide

theorem gray_grayEncodeNibble : ∀ (c : Bool) (d : Nibble), gray c (grayEncodeNibble c d) = d := by decide

/-- A byte is its two nibbles. -/
theorem nibbles_append (b : Byte) : (b.extractLsb' 4 4 ++ b.extractLsb' 0 4 : Byte) = b := by
  ext i hlt
  simp only [BitVec.getElem_append, BitVec.getElem_extractLsb']
  grind

/-- A byte is decoded nibble by nibble, the low one under the decoded high one's low bit (R91). -/
theorem grayByte_append (c : Bool) (hi lo : Nibble) :
    (grayByte c (hi ++ lo)).1 = gray c hi ++ gray ((gray c hi).getLsbD 0) lo := by
  have hhigh : (hi ++ lo).extractLsb' 4 4 = hi := BitVec.extractLsb'_append_eq_left
  have hlow : (hi ++ lo).extractLsb' 0 4 = lo := BitVec.extractLsb'_append_eq_right
  simp only [grayByte, grayNibble, hhigh, hlow]

/-- A byte is encoded nibble by nibble, the low one under the high one's low bit. -/
theorem grayEncodeByte_append (c : Bool) (hi lo : Nibble) :
    grayEncodeByte c (hi ++ lo) = grayEncodeNibble c hi ++ grayEncodeNibble (hi.getLsbD 0) lo := by
  unfold grayEncodeByte grayEncodeNibble
  ext i hlt
  simp only [BitVec.getElem_append, BitVec.getElem_xor, BitVec.getElem_or, BitVec.getElem_ushiftRight,
    BitVec.getLsbD_append]
  grind

theorem grayEncodeByte_grayByte (c : Bool) (b : Byte) : grayEncodeByte c (grayByte c b).1 = b := by
  rw [← nibbles_append b, grayByte_append, grayEncodeByte_append, grayEncodeNibble_gray, grayEncodeNibble_gray]

theorem grayByte_grayEncodeByte (c : Bool) (d : Byte) : (grayByte c (grayEncodeByte c d)).1 = d := by
  rw [← nibbles_append d, grayEncodeByte_append, grayByte_append, gray_grayEncodeNibble, gray_grayEncodeNibble]

/-- The byte step passes the low bit of the decoded byte on (R90, R91). -/
theorem grayByte_carry (c : Bool) (b : Byte) : (grayByte c b).2 = (grayByte c b).1.getLsbD 0 := by
  simp only [grayByte, grayNibble, BitVec.getLsbD_append]
  rfl

/-- The byte step tells two bytes apart by their codes. -/
theorem grayEncodeByte_inj {c : Bool} {d d' : Byte} (h : grayEncodeByte c d = grayEncodeByte c d') : d = d' := by
  rw [← grayByte_grayEncodeByte c d, h, grayByte_grayEncodeByte]

/-- A bit of the code is the difference of the byte's bit from the bit above it, which is `c` at the top (R94). -/
theorem getLsbD_grayEncodeByte (c : Bool) (d : Byte) {i : Nat} (hi : i < 8) :
    (grayEncodeByte c d).getLsbD i = (d.getLsbD i ^^ if i = 7 then c else d.getLsbD (i + 1)) := by
  simp only [grayEncodeByte, BitVec.getLsbD_xor, BitVec.getLsbD_or, BitVec.getLsbD_ushiftRight, BitVec.getLsbD_append,
    BitVec.getLsbD_ofBool]
  grind

/-! ### One byte of a plane -/

theorem State.packedByte_grayAt (s : State) (slot : Bool) (b c : Nat) :
    (s.grayAt slot b).packedByte slot c =
      if c = b then (grayByte s.carry (s.packedByte slot b)).1 else s.packedByte slot c := by
  refine (s.packedByte_writePacked slot slot b c _).trans ?_
  simp only [true_and]

theorem State.carry_grayAt (s : State) (slot : Bool) (b : Nat) :
    (s.grayAt slot b).carry = (grayByte s.carry (s.packedByte slot b)).2 := rfl

theorem State.packedCells_grayAt_other (s : State) (slot : Bool) (b : Nat) :
    (s.grayAt slot b).packedCells (!slot) = s.packedCells (!slot) := by
  refine (s.packedCells_writePacked slot (!slot) b _).trans (if_neg ?_)
  cases slot <;> decide

/-! ### Rows and columns of a plane -/

/-- An index has one row and one column. -/
theorem row_and_column_inj {m x x' y y' : Nat} (hx : x < m) (hx' : x' < m) (h : y * m + x = y' * m + x') :
    y = y' ∧ x = x' := by
  have hpos : 0 < m := Nat.zero_lt_of_lt hx
  obtain ⟨hdiv, hmod⟩ := row_and_column hpos y hx
  obtain ⟨hdiv', hmod'⟩ := row_and_column hpos y' hx'
  exact ⟨by rw [← hdiv, h, hdiv'], by rw [← hmod, h, hmod']⟩

/-- The rows and columns of a plane are its first `S(W)` bytes (R8, R92). -/
theorem row_and_column_lt {w x y : Nat} (hx : x < 8 * w) (hy : y < w) : y * (8 * w) + x < 8 * (w * w) :=
  calc y * (8 * w) + x < y * (8 * w) + 8 * w := Nat.add_lt_add_left hx _
    _ = (y + 1) * (8 * w) := (Nat.succ_mul ..).symm
    _ ≤ w * (8 * w) := Nat.mul_le_mul_right _ hy
    _ = 8 * (w * w) := Nat.mul_left_comm ..

/-! ### One column of a plane -/

/-- The carry that reaches row `y` of column `x` (R92). -/
def State.columnCarry (s : State) (slot : Bool) (x : Nat) : Nat → Bool
  | 0 => false
  | y + 1 => (grayByte (s.columnCarry slot x y) (s.packedByte slot (y * (8 * s.w) + x))).2

/-- Byte `(y, x)` of a plane after GrayPlane (R92). -/
def State.grayDecoded (s : State) (slot : Bool) (y x : Nat) : Byte :=
  (grayByte (s.columnCarry slot x y) (s.packedByte slot (y * (8 * s.w) + x))).1

/-- The carry into a row is the low bit of the decoded byte above it (R94). -/
theorem State.columnCarry_eq (s : State) (slot : Bool) (x y : Nat) :
    s.columnCarry slot x y = if y = 0 then false else (s.grayDecoded slot (y - 1) x).getLsbD 0 := by
  cases y with
  | zero => rfl
  | succ y => exact grayByte_carry _ _

/-- What a column decodes to depends on that column only. -/
theorem State.columnCarry_congr {s t : State} {slot : Bool} {x n : Nat} (hw : t.w = s.w)
    (h : ∀ y < n, t.packedByte slot (y * (8 * s.w) + x) = s.packedByte slot (y * (8 * s.w) + x)) :
    t.columnCarry slot x n = s.columnCarry slot x n := by
  induction n with
  | zero => rfl
  | succ n ih =>
    rw [State.columnCarry, State.columnCarry, ih fun y hy => h y (Nat.lt_succ_of_lt hy), hw, h n (Nat.lt_succ_self n)]

theorem State.grayDecoded_congr {s t : State} {slot : Bool} {x y : Nat} (hw : t.w = s.w)
    (h : ∀ i ≤ y, t.packedByte slot (i * (8 * s.w) + x) = s.packedByte slot (i * (8 * s.w) + x)) :
    t.grayDecoded slot y x = s.grayDecoded slot y x := by
  rw [State.grayDecoded, State.grayDecoded, State.columnCarry_congr hw fun i hi => h i (Nat.le_of_lt hi), hw,
    h y (Nat.le_refl y)]

/-- GrayColumn stopped after `n` rows. -/
def State.grayRows (s : State) (slot : Bool) (x n : Nat) : State :=
  loop n (fun y t => t.grayAt slot (y * (8 * s.w) + x)) { s with carry := false }

theorem State.grayColumn_eq_grayRows (s : State) (slot : Bool) (x : Nat) :
    s.grayColumn slot x = s.grayRows slot x s.w := rfl

/-- The rows visited are decoded in place, and no other byte changes. -/
theorem State.grayRows_spec (s : State) (slot : Bool) {x : Nat} (hx : x < 8 * s.w) (n : Nat) :
    (s.grayRows slot x n).carry = s.columnCarry slot x n
    ∧ (∀ y < n, (s.grayRows slot x n).packedByte slot (y * (8 * s.w) + x) = s.grayDecoded slot y x)
    ∧ ∀ b, (∀ y < n, b ≠ y * (8 * s.w) + x) → (s.grayRows slot x n).packedByte slot b = s.packedByte slot b := by
  induction n with
  | zero => exact ⟨rfl, fun y hy => absurd hy y.not_lt_zero, fun b _ => rfl⟩
  | succ n ih =>
    obtain ⟨hcarry, hrows, hothers⟩ := ih
    have hsucc : s.grayRows slot x (n + 1) = (s.grayRows slot x n).grayAt slot (n * (8 * s.w) + x) := rfl
    have hrow {y : Nat} (hy : y < n) : y * (8 * s.w) + x ≠ n * (8 * s.w) + x := fun heq =>
      Nat.ne_of_lt hy (row_and_column_inj hx hx heq).1
    have hnext := hothers (n * (8 * s.w) + x) fun y hy => (hrow hy).symm
    rw [hsucc]
    refine ⟨?_, fun y hy => ?_, fun b hb => ?_⟩
    · rw [State.carry_grayAt, hcarry, hnext, State.columnCarry]
    · rw [State.packedByte_grayAt, hcarry, hnext]
      rcases Nat.lt_succ_iff_lt_or_eq.mp hy with hlt | rfl
      · rw [if_neg (hrow hlt), hrows y hlt]
      · rw [if_pos rfl, State.grayDecoded]
    · rw [State.packedByte_grayAt, if_neg (hb n (Nat.lt_succ_self n))]
      exact hothers b fun y hy => hb y (Nat.lt_succ_of_lt hy)

/-! ### A whole plane -/

/-- GrayPlane stopped after `n` columns. -/
def State.grayColumns (s : State) (slot : Bool) (n : Nat) : State :=
  loop n (fun x t => t.grayColumn slot x) s

theorem State.grayPlane_eq_grayColumns (s : State) (slot : Bool) :
    s.grayPlane slot = s.grayColumns slot (8 * s.w) := rfl

theorem State.w_grayColumn (s : State) (slot : Bool) (x : Nat) : (s.grayColumn slot x).w = s.w :=
  loop_keeps (P := fun t => t.w = s.w) (fun _ _ _ ht => ht) rfl

theorem State.w_grayColumns (s : State) (slot : Bool) (n : Nat) : (s.grayColumns slot n).w = s.w :=
  loop_keeps (P := fun t => t.w = s.w) (fun _ _ t ht => (t.w_grayColumn slot _).trans ht) rfl

theorem State.w_grayPlane (s : State) (slot : Bool) : (s.grayPlane slot).w = s.w := s.w_grayColumns slot _

/-- The columns visited are decoded in place, the others are as they were. -/
theorem State.packedByte_grayColumns (s : State) (slot : Bool) {n : Nat} (hn : n ≤ 8 * s.w) {x y : Nat}
    (hx : x < 8 * s.w) (hy : y < s.w) :
    (s.grayColumns slot n).packedByte slot (y * (8 * s.w) + x) =
      if x < n then s.grayDecoded slot y x else s.packedByte slot (y * (8 * s.w) + x) := by
  induction n generalizing x y with
  | zero => rfl
  | succ n ih =>
    have hsucc : s.grayColumns slot (n + 1) = (s.grayColumns slot n).grayColumn slot n := rfl
    have hw := s.w_grayColumns slot n
    have hnw : n < 8 * s.w := hn
    obtain ⟨_, hrows, hothers⟩ := (s.grayColumns slot n).grayRows_spec slot (hw ▸ hnw) (s.grayColumns slot n).w
    rw [← State.grayColumn_eq_grayRows, ← hsucc, hw] at hrows hothers
    by_cases hxn : x = n
    · subst hxn
      rw [if_pos x.lt_succ_self, hrows y hy]
      refine State.grayDecoded_congr hw fun i hi => ?_
      rw [ih (Nat.le_of_lt hnw) hx (Nat.lt_of_le_of_lt hi hy), if_neg x.lt_irrefl]
    · have hcol (i : Nat) (_ : i < s.w) : y * (8 * s.w) + x ≠ i * (8 * s.w) + n := fun heq =>
        hxn (row_and_column_inj hx hnw heq).2
      rw [hothers _ hcol, ih (Nat.le_of_lt hnw) hx hy]
      have hlt : x < n ↔ x < n + 1 := by omega
      simp only [hlt]

/-- GrayPlane as an equation per byte (R92). -/
theorem State.packedByte_grayPlane (s : State) (slot : Bool) {x y : Nat} (hx : x < 8 * s.w) (hy : y < s.w) :
    (s.grayPlane slot).packedByte slot (y * (8 * s.w) + x) = s.grayDecoded slot y x := by
  rw [State.grayPlane_eq_grayColumns, State.packedByte_grayColumns s slot (Nat.le_refl _) hx hy, if_pos hx]

/-- Bytes from `S(W)` on are in no column (R92). -/
theorem State.packedByte_grayColumn_beyond (s : State) (slot : Bool) {x b : Nat} (hx : x < 8 * s.w)
    (hb : 8 * (s.w * s.w) ≤ b) : (s.grayColumn slot x).packedByte slot b = s.packedByte slot b := by
  obtain ⟨_, _, hothers⟩ := s.grayRows_spec slot hx s.w
  exact hothers b fun y hy => Nat.ne_of_gt (Nat.lt_of_lt_of_le (row_and_column_lt hx hy) hb)

theorem State.packedByte_grayPlane_beyond (s : State) (slot : Bool) {b : Nat} (hb : 8 * (s.w * s.w) ≤ b) :
    (s.grayPlane slot).packedByte slot b = s.packedByte slot b := by
  have hloop : (s.grayPlane slot).w = s.w ∧ (s.grayPlane slot).packedByte slot b = s.packedByte slot b := by
    refine loop_keeps (P := fun t => t.w = s.w ∧ t.packedByte slot b = s.packedByte slot b)
      (fun x hx t ⟨hw, ht⟩ => ⟨(t.w_grayColumn slot x).trans hw, ?_⟩) ⟨rfl, rfl⟩
    exact (t.packedByte_grayColumn_beyond slot (hw ▸ hx) (hw ▸ hb)).trans ht
  exact hloop.2

theorem State.packedCells_grayPlane_other (s : State) (slot : Bool) :
    (s.grayPlane slot).packedCells (!slot) = s.packedCells (!slot) :=
  loop_keeps (P := fun t => t.packedCells (!slot) = s.packedCells (!slot)) (fun _ _ t ht =>
    loop_keeps (s := { t with carry := false }) (fun _ _ u hu => (u.packedCells_grayAt_other slot _).trans hu) ht) rfl

/-- Settles O28: every write of a column falls in the bytes `[0, S)` of its own plane. -/
theorem grayPlaneFrame : Obligations.GrayPlaneFrame := fun s slot =>
  ⟨(OnlyPacks.grayPlane s slot).frame, s.packedCells_grayPlane_other slot, fun _ hb =>
    s.packedByte_grayPlane_beyond slot hb⟩

/-! ### The encoder undoes GrayPlane, and GrayPlane the encoder -/

/-- The code of a decoded plane is the plane (R94). -/
theorem State.grayEncoded_grayPlane (s : State) (slot : Bool) {x y : Nat} (hx : x < 8 * s.w) (hy : y < s.w) :
    (s.grayPlane slot).grayEncoded slot y x = s.packedByte slot (y * (8 * s.w) + x) := by
  have habove : (if y = 0 then false else ((s.grayPlane slot).packedByte slot ((y - 1) * (8 * s.w) + x)).getLsbD 0)
      = s.columnCarry slot x y := by
    rw [State.columnCarry_eq, State.packedByte_grayPlane s slot hx (by omega)]
  rw [State.grayEncoded, State.w_grayPlane, habove, State.packedByte_grayPlane s slot hx hy, State.grayDecoded,
    grayEncodeByte_grayByte]

/-- Columns with the same code are the same: the top byte's code gives the top byte, and each byte the next. -/
theorem packedByte_eq_of_grayEncoded_eq {s t : State} {slot : Bool} {x n : Nat} (hw : t.w = s.w)
    (h : ∀ y < n, t.grayEncoded slot y x = s.grayEncoded slot y x) {y : Nat} (hy : y < n) :
    t.packedByte slot (y * (8 * s.w) + x) = s.packedByte slot (y * (8 * s.w) + x) := by
  have hcode (i : Nat) (hi : i < n) := h i hi
  simp only [State.grayEncoded, hw] at hcode
  induction y with
  | zero => exact grayEncodeByte_inj (hcode 0 hy)
  | succ y ih =>
    have hnext := hcode (y + 1) hy
    rw [Nat.add_sub_cancel, ih (Nat.lt_of_succ_lt hy)] at hnext
    exact grayEncodeByte_inj hnext

/-- GrayPlane of the code of a plane is the plane (R94). -/
theorem State.packedByte_grayPlane_of_encoded {s e : State} {slot : Bool} (hw : e.w = s.w)
    (h : ∀ y x, y < s.w → x < 8 * s.w → e.packedByte slot (y * (8 * s.w) + x) = s.grayEncoded slot y x)
    {x y : Nat} (hx : x < 8 * s.w) (hy : y < s.w) :
    (e.grayPlane slot).packedByte slot (y * (8 * s.w) + x) = s.packedByte slot (y * (8 * s.w) + x) := by
  refine packedByte_eq_of_grayEncoded_eq ((e.w_grayPlane slot).trans hw) (fun i hi => ?_) hy
  rw [State.grayEncoded_grayPlane e slot (hw ▸ hx) (hw ▸ hi), hw, h i x hi hx]

/-- A plane of width 1 whose first byte is 0x40 and whose other bytes are 0. -/
def notSelfInverse : State :=
  { State.reset with
    width1 := 1
    packed0 := [(0, 0x40), (1, 0), (2, 0), (3, 0), (4, 0), (5, 0), (6, 0), (7, 0)] }

/-- Two decodes of byte 0x40 give 0x55, by way of 0x7F (R94). -/
theorem notSelfInverse_decoded_twice :
    ((notSelfInverse.grayPlane false).grayPlane false).packedByte false 0 = 0x55
    ∧ notSelfInverse.packedByte false 0 = 0x40 := by decide

/-- Settles O29: the two equations of the encoder, and a plane that two decodes do not restore. -/
theorem grayEncoderInvertsGrayPlane : Obligations.GrayEncoderInvertsGrayPlane := by
  refine ⟨fun s e slot hw h y x hy hx => State.packedByte_grayPlane_of_encoded hw h hx hy,
    fun s slot y x hy hx => s.grayEncoded_grayPlane slot hx hy, rfl, rfl, notSelfInverse, 0, by decide, ?_⟩
  obtain ⟨htwice, honce⟩ := notSelfInverse_decoded_twice
  rw [htwice, honce]
  decide

/-! ### The running XOR -/

/-- A sequence is the running XOR of its differences. -/
theorem eq_prefixXor_of_differences {d e : Nat → Bool} {n : Nat}
    (h : ∀ t < n, e t = (d t ^^ if t = 0 then false else d (t - 1))) {t : Nat} (ht : t < n) : d t = prefixXor e t := by
  induction t with
  | zero => rw [prefixXor, h 0 ht, if_pos rfl, Bool.xor_false]
  | succ t ih =>
    rw [prefixXor, ← ih (Nat.lt_of_succ_lt ht), h (t + 1) ht]
    simp [Bool.xor_comm]

/-- Down a column the encoder takes differences, across the bytes too (R94). -/
theorem State.getLsbD_grayEncoded (s : State) (slot : Bool) (x t : Nat) :
    (s.grayEncoded slot (t / 8) x).getLsbD (7 - t % 8) =
      (s.columnBit slot x t ^^ if t = 0 then false else s.columnBit slot x (t - 1)) := by
  rw [State.grayEncoded, getLsbD_grayEncodeByte _ _ (by omega), ← State.columnBit]
  congr 1
  by_cases htop : t % 8 = 0
  · by_cases h0 : t = 0
    · simp [h0]
    · have hrow : (t - 1) / 8 = t / 8 - 1 := by omega
      have hlow : (t - 1) % 8 = 7 := by omega
      have hy : t / 8 ≠ 0 := by omega
      simp [htop, h0, hy, State.columnBit, hrow, hlow]
  · have hrow : (t - 1) / 8 = t / 8 := by omega
    have hbit : 7 - t % 8 + 1 = 7 - (t - 1) % 8 := by omega
    have hlow : 7 - t % 8 ≠ 7 := by omega
    have h0 : t ≠ 0 := by omega
    rw [if_neg hlow, if_neg h0, State.columnBit, hrow, hbit]

/-- After GrayPlane a column is the running XOR of what it was (R93). -/
theorem State.columnBit_grayPlane (s : State) (slot : Bool) {x t : Nat} (hx : x < 8 * s.w) (ht : t < 8 * s.w) :
    (s.grayPlane slot).columnBit slot x t = prefixXor (s.columnBit slot x) t := by
  refine eq_prefixXor_of_differences (fun i hi => ?_) ht
  rw [← State.getLsbD_grayEncoded, State.grayEncoded_grayPlane s slot hx (by omega), State.columnBit]

/-- Settles O27: bit `7 - j` of row `y` is bit `8y + j` of its column. -/
theorem grayPlaneIsRunningXor : Obligations.GrayPlaneIsRunningXor := by
  refine ⟨fun s slot x y j hx hy hj => ?_, by decide⟩
  have hrow : (8 * y + j) / 8 = y := by omega
  have hbit : (8 * y + j) % 8 = j := by omega
  rw [← State.columnBit_grayPlane s slot hx (by omega), State.columnBit, State.w_grayPlane, hrow, hbit]

end Sys2Proof.Machine
end

section
/-! SUPPORT. The plane merger and the interleave (O30 to O32): GrayPlane as an operation on one plane alone, XorPlanes
and the merge of each mode byte by byte, and the bytes of OUT after each turn of Interleave, R98 to R104. -/

namespace Sys2Proof.Machine

/-! ### GrayPlane acts on one plane alone -/

/-- `t` holds the same plane as `s`: the two may differ in the other plane, the carry and all else that GrayPlane does
not read (R92, R102). -/
structure SamePlane (slot : Bool) (s t : State) : Prop where
  width : t.w = s.w
  era : t.era = s.era
  cells : t.packedCells slot = s.packedCells slot

theorem SamePlane.packedByte {slot : Bool} {s t : State} (h : SamePlane slot s t) (b : Nat) :
    t.packedByte slot b = s.packedByte slot b := by
  rw [State.packedByte, State.packedByte, h.cells, h.era]

theorem State.packedCells_grayAt (s : State) (slot : Bool) (b : Nat) :
    (s.grayAt slot b).packedCells slot =
      Cells.write b (grayByte s.carry (s.packedByte slot b)).1 (s.packedCells slot) :=
  (s.packedCells_writePacked slot slot b _).trans (if_pos rfl)

/-- The byte step reads its byte and the carry (R91). -/
theorem SamePlane.grayAt {slot : Bool} {s t : State} (h : SamePlane slot s t) (hcarry : t.carry = s.carry) (b : Nat) :
    SamePlane slot (s.grayAt slot b) (t.grayAt slot b) := by
  refine ⟨h.width, h.era, ?_⟩
  rw [State.packedCells_grayAt, State.packedCells_grayAt, h.cells, hcarry, h.packedByte]

theorem SamePlane.carry_grayAt {slot : Bool} {s t : State} (h : SamePlane slot s t) (hcarry : t.carry = s.carry)
    (b : Nat) : (t.grayAt slot b).carry = (s.grayAt slot b).carry := by
  rw [t.carry_grayAt, s.carry_grayAt, hcarry, h.packedByte]

/-- A column sets the carry before its first byte, so the carry it is entered with is not read (R92). -/
theorem SamePlane.grayRows {slot : Bool} {s t : State} (h : SamePlane slot s t) (x n : Nat) :
    SamePlane slot (s.grayRows slot x n) (t.grayRows slot x n)
    ∧ (t.grayRows slot x n).carry = (s.grayRows slot x n).carry := by
  induction n with
  | zero => exact ⟨⟨h.width, h.era, h.cells⟩, rfl⟩
  | succ n ih =>
    obtain ⟨hsame, hcarry⟩ := ih
    have hs : s.grayRows slot x (n + 1) = (s.grayRows slot x n).grayAt slot (n * (8 * s.w) + x) := rfl
    have ht : t.grayRows slot x (n + 1) = (t.grayRows slot x n).grayAt slot (n * (8 * t.w) + x) := rfl
    rw [hs, ht, h.width]
    exact ⟨hsame.grayAt hcarry _, hsame.carry_grayAt hcarry _⟩

theorem SamePlane.grayColumn {slot : Bool} {s t : State} (h : SamePlane slot s t) (x : Nat) :
    SamePlane slot (s.grayColumn slot x) (t.grayColumn slot x) := by
  obtain ⟨hsame, _⟩ := h.grayRows x s.w
  rwa [s.grayColumn_eq_grayRows, t.grayColumn_eq_grayRows, h.width]

theorem SamePlane.grayColumns {slot : Bool} {s t : State} (h : SamePlane slot s t) (n : Nat) :
    SamePlane slot (s.grayColumns slot n) (t.grayColumns slot n) := by
  induction n with
  | zero => exact h
  | succ n ih => exact ih.grayColumn n

/-- What GrayPlane leaves in a plane depends on that plane alone (R92). -/
theorem SamePlane.grayPlane {slot : Bool} {s t : State} (h : SamePlane slot s t) :
    SamePlane slot (s.grayPlane slot) (t.grayPlane slot) := by
  rw [s.grayPlane_eq_grayColumns, t.grayPlane_eq_grayColumns, h.width]
  exact h.grayColumns _

theorem State.era_grayPlane (s : State) (slot : Bool) : (s.grayPlane slot).era = s.era := by
  rw [(OnlyPacks.grayPlane s slot).frame]

theorem State.order_grayPlane (s : State) (slot : Bool) : (s.grayPlane slot).order = s.order := by
  rw [(OnlyPacks.grayPlane s slot).frame]

/-- Decoding one plane leaves the other as it was. -/
theorem SamePlane.of_grayPlane_other (s : State) (slot : Bool) : SamePlane (!slot) s (s.grayPlane slot) :=
  ⟨s.w_grayPlane slot, s.era_grayPlane slot, s.packedCells_grayPlane_other slot⟩

theorem State.packedByte_grayPlane_other (s : State) (slot : Bool) (b : Nat) :
    (s.grayPlane slot).packedByte (!slot) b = s.packedByte (!slot) b :=
  (SamePlane.of_grayPlane_other s slot).packedByte b

/-- After both decodes, in either order, each plane is as its own decode alone leaves it (R102). -/
theorem State.grayPlane_both (s : State) (first slot : Bool) :
    SamePlane slot (s.grayPlane slot) ((s.grayPlane first).grayPlane (!first)) := by
  by_cases hslot : slot = first
  · subst hslot
    have h := SamePlane.of_grayPlane_other (s.grayPlane slot) (!slot)
    rwa [Bool.not_not] at h
  · obtain rfl : slot = !first := Bool.eq_not.mpr hslot
    exact (SamePlane.of_grayPlane_other s first).grayPlane

/-- States that differ from one state in the packed planes and the carry agree, but for the carry, when their planes
do. -/
theorem SameButPacked.eq_of_packedCells_eq {s t u : State} (ht : SameButPacked s t) (hu : SameButPacked s u)
    (h : ∀ slot, t.packedCells slot = u.packedCells slot) : { t with carry := false } = { u with carry := false } := by
  have h0 : t.packed0 = u.packed0 := h false
  have h1 : t.packed1 = u.packed1 := h true
  rw [ht, hu, h0, h1]

/-- Settles O30: each plane is decoded from its own bytes, whichever goes first. -/
theorem grayDecodesCommute : Obligations.GrayDecodesCommute := fun s =>
  SameButPacked.eq_of_packedCells_eq
    ((OnlyPacks.grayPlane s false).trans (.grayPlane _ true)).frame
    ((OnlyPacks.grayPlane s true).trans (.grayPlane _ false)).frame
    fun slot => (s.grayPlane_both false slot).cells.trans (s.grayPlane_both true slot).cells.symm

/-! ### XorPlanes -/

/-- XorPlanes stopped after `n` bytes. -/
def State.xorBytes (s : State) (n : Nat) : State :=
  loop n (fun b t => t.writePacked (!s.order) b (t.packedByte (!s.order) b ^^^ t.packedByte s.order b)) s

theorem State.xorPlanes_eq_xorBytes (s : State) : s.xorPlanes = s.xorBytes (packedBytes s.w) := rfl

/-- The primary plane is only read (R101). -/
theorem State.packedByte_xorBytes_order (s : State) (n b : Nat) :
    (s.xorBytes n).packedByte s.order b = s.packedByte s.order b :=
  loop_keeps (P := fun t => t.packedByte s.order b = s.packedByte s.order b) (fun i _ t ht => by
    rw [State.packedByte_writePacked, if_neg (fun h => (Bool.not_eq_self _).mp h.1.symm)]
    exact ht) rfl

/-- The bytes visited are XORed with the primary plane's, the others are as they were (R101). -/
theorem State.packedByte_xorBytes_other (s : State) (n b : Nat) :
    (s.xorBytes n).packedByte (!s.order) b =
      if b < n then s.packedByte (!s.order) b ^^^ s.packedByte s.order b else s.packedByte (!s.order) b := by
  induction n with
  | zero => rfl
  | succ n ih =>
    have hsucc : s.xorBytes (n + 1) = (s.xorBytes n).writePacked (!s.order) n
        ((s.xorBytes n).packedByte (!s.order) n ^^^ (s.xorBytes n).packedByte s.order n) := rfl
    rw [hsucc, State.packedByte_writePacked]
    by_cases hb : b = n
    · subst hb
      rw [if_pos ⟨rfl, rfl⟩, if_pos (Nat.lt_succ_self b), ih, if_neg (Nat.lt_irrefl b), State.packedByte_xorBytes_order]
    · have hlt : b < n + 1 ↔ b < n := by omega
      simp only [hb, hlt, and_false, if_false, ih]

theorem State.packedByte_xorPlanes_order (s : State) (b : Nat) :
    s.xorPlanes.packedByte s.order b = s.packedByte s.order b := s.packedByte_xorBytes_order _ b

theorem State.packedByte_xorPlanes_other (s : State) (b : Nat) :
    s.xorPlanes.packedByte (!s.order) b =
      if b < packedBytes s.w then s.packedByte (!s.order) b ^^^ s.packedByte s.order b
      else s.packedByte (!s.order) b := s.packedByte_xorBytes_other _ b

/-! ### The merge of each mode -/

/-- MODE.0 decodes each plane by itself (R98). -/
theorem State.packedByte_mergeMode0 (s : State) (slot : Bool) (b : Nat) :
    s.mergeMode0.packedByte slot b = (s.grayPlane slot).packedByte slot b :=
  (s.grayPlane_both false slot).packedByte b

/-- MODE.2 is MODE.0 followed by XorPlanes (R100). -/
theorem State.mergeMode2_eq (s : State) : s.mergeMode2 = s.mergeMode0.xorPlanes := rfl

theorem State.w_mergeMode0 (s : State) : s.mergeMode0.w = s.w :=
  (State.w_grayPlane _ true).trans (s.w_grayPlane false)

theorem State.order_mergeMode0 (s : State) : s.mergeMode0.order = s.order :=
  (State.order_grayPlane _ true).trans (s.order_grayPlane false)

/-- The merged planes, for the modes a mode code gives (R103). -/
def State.merged (s : State) : State :=
  if s.mode = 0 then s.mergeMode0 else if s.mode = 1 then s.mergeMode1 else s.mergeMode2

theorem State.merged_of_mode0 {s : State} (h : s.mode = 0) : s.merged = s.mergeMode0 := if_pos h

theorem State.merged_of_mode1 {s : State} (h : s.mode = 1) : s.merged = s.mergeMode1 := by
  rw [State.merged, h]; rfl

theorem State.merged_of_mode2 {s : State} (h : s.mode = 2) : s.merged = s.mergeMode2 := by
  rw [State.merged, h]; rfl

/-- A mode is one of the three, or the one that no mode code gives (R103). -/
theorem mode_cases {m : BitVec 2} (h : m ≠ 3) : m = 0 ∨ m = 1 ∨ m = 2 := by
  bv_omega

/-- MERGE puts the merged planes in place and goes on to OUTPUT (R118). -/
theorem State.merge_eq_merged {s : State} (hmode : s.mode ≠ 3) :
    s.merge = .next { s.merged with stage := .output } := by
  rcases mode_cases hmode with h | h | h
  · rw [State.merge, if_pos h, State.merged_of_mode0 h]
  · rw [State.merged_of_mode1 h, State.merge, h]; rfl
  · rw [State.merged_of_mode2 h, State.merge, h]; rfl

/-- A merge writes the packed planes only (R98 to R100). -/
theorem OnlyPacks.merged (s : State) : OnlyPacks s s.merged := by
  refine OnlyPacks.merge ?_
  unfold State.merged
  split
  · exact .inl rfl
  · split
    · exact .inr (.inl rfl)
    · exact .inr (.inr rfl)

/-- In every mode the primary plane is Gray-decoded (R98 to R100). -/
theorem State.packedByte_merged_order (s : State) (b : Nat) :
    s.merged.packedByte s.order b = (s.grayPlane s.order).packedByte s.order b := by
  unfold State.merged
  split
  · exact s.packedByte_mergeMode0 s.order b
  · split
    · have h := State.packedByte_xorPlanes_order (s.grayPlane s.order) b
      rwa [State.order_grayPlane] at h
    · have h := State.packedByte_xorPlanes_order s.mergeMode0 b
      rwa [State.order_mergeMode0, State.packedByte_mergeMode0] at h

/-- MODE.1 leaves the other plane as it was coded and XORs the decoded primary into it (R99). -/
theorem State.packedByte_mergeMode1_other (s : State) (b : Nat) :
    s.mergeMode1.packedByte (!s.order) b =
      if b < packedBytes s.w then s.packedByte (!s.order) b ^^^ (s.grayPlane s.order).packedByte s.order b
      else s.packedByte (!s.order) b := by
  have h := State.packedByte_xorPlanes_other (s.grayPlane s.order) b
  rwa [State.order_grayPlane, State.w_grayPlane, State.packedByte_grayPlane_other] at h

/-- MODE.2 decodes the other plane too before the XOR (R100). -/
theorem State.packedByte_mergeMode2_other (s : State) (b : Nat) :
    s.mergeMode2.packedByte (!s.order) b =
      if b < packedBytes s.w then
        (s.grayPlane (!s.order)).packedByte (!s.order) b ^^^ (s.grayPlane s.order).packedByte s.order b
      else (s.grayPlane (!s.order)).packedByte (!s.order) b := by
  have h := State.packedByte_xorPlanes_other s.mergeMode0 b
  rwa [State.order_mergeMode0, State.w_mergeMode0, State.packedByte_mergeMode0, State.packedByte_mergeMode0] at h

/-- `S(W)` in the spelling of the statements (R8). -/
theorem packedBytes_eq (w : Nat) : packedBytes w = 8 * (w * w) := Nat.mul_comm ..

/-- Bytes from `S(W)` on are not merged. -/
theorem State.packedByte_merged_beyond (s : State) (slot : Bool) {b : Nat} (hb : 8 * (s.w * s.w) ≤ b) :
    s.merged.packedByte slot b = s.packedByte slot b := by
  have hout : ¬ b < packedBytes s.w := by rw [packedBytes_eq]; omega
  by_cases hslot : slot = s.order
  · rw [hslot, State.packedByte_merged_order, State.packedByte_grayPlane_beyond s _ hb]
  · obtain rfl : slot = !s.order := Bool.eq_not.mpr hslot
    unfold State.merged
    split
    · rw [State.packedByte_mergeMode0, State.packedByte_grayPlane_beyond s _ hb]
    · split
      · rw [State.packedByte_mergeMode1_other, if_neg hout]
      · rw [State.packedByte_mergeMode2_other, if_neg hout, State.packedByte_grayPlane_beyond s _ hb]

/-! ### The MERGE step -/

/-- The event taken is no part of a plane, so a decode after it leaves the same plane. -/
theorem State.packedByte_grayPlane_pop (s : State) (slot : Bool) (b : Nat) :
    (s.pop.grayPlane slot).packedByte slot b = (s.grayPlane slot).packedByte slot b :=
  (SamePlane.grayPlane (s := s) (t := s.pop) ⟨rfl, rfl, rfl⟩).packedByte b

/-- The engine's turn at the stage MERGE puts the merged planes in place (R118). -/
theorem step_of_merge {s : State} (hturn : s.engineNext = true) (hb : s.status = .busy) (hstage : s.stage = .merge)
    (hmode : s.mode ≠ 3) : step s = .next { s.pop.merged with stage := .output } := by
  have hparse : s.parse = none := by rw [State.parse, if_pos hb, hstage]
  have hpop : s.pop.stage = .merge := hstage
  rw [step_of_work hturn hb hparse, State.engineWork, hpop]
  exact State.merge_eq_merged hmode

/-- The stage is no part of the planes. -/
theorem SameButPacked.withStage {s t : State} (h : SameButPacked s t) (g : Stage) :
    SameButPacked { s with stage := g } { t with stage := g } := by
  obtain ⟨_, _, _, rfl⟩ := h.exists_fields
  rfl

/-- Settles O31: the bytes of the merged planes, mode by mode, over the state with its event taken. -/
theorem mergeAppliesTheMode : Obligations.MergeAppliesTheMode := by
  intro s hturn hb hstage hmode
  refine ⟨_, step_of_merge hturn hb hstage hmode, rfl, (OnlyPacks.merged s.pop).frame.withStage .output,
    fun b hlt => ⟨?_, fun h => ?_, fun h => ?_, fun h => ?_⟩, fun slot b hbeyond => ?_⟩
  case refine_5 => exact s.pop.packedByte_merged_beyond slot hbeyond
  all_goals
    have hin : b < packedBytes s.pop.w := Nat.lt_of_lt_of_eq hlt (packedBytes_eq s.w).symm
  case refine_1 =>
    rw [← s.packedByte_grayPlane_pop]
    exact s.pop.packedByte_merged_order b
  case refine_2 =>
    rw [← s.packedByte_grayPlane_pop]
    calc s.pop.merged.packedByte (!s.order) b
        = s.pop.mergeMode0.packedByte (!s.order) b := by rw [State.merged_of_mode0 (s := s.pop) h]
      _ = _ := s.pop.packedByte_mergeMode0 (!s.order) b
  case refine_3 =>
    rw [← s.packedByte_grayPlane_pop]
    calc s.pop.merged.packedByte (!s.order) b
        = s.pop.mergeMode1.packedByte (!s.order) b := by rw [State.merged_of_mode1 (s := s.pop) h]
      _ = _ := (s.pop.packedByte_mergeMode1_other b).trans (if_pos hin)
  case refine_4 =>
    rw [← s.packedByte_grayPlane_pop (!s.order), ← s.packedByte_grayPlane_pop s.order]
    calc s.pop.merged.packedByte (!s.order) b
        = s.pop.mergeMode2.packedByte (!s.order) b := by rw [State.merged_of_mode2 (s := s.pop) h]
      _ = _ := (s.pop.packedByte_mergeMode2_other b).trans (if_pos hin)

/-! ### Interleave -/

/-- Interleave stopped after `n` bytes of each plane. -/
def State.interleaveTo (s : State) (n : Nat) : State :=
  loop n (fun b t => (t.writeOut (2 * b) (t.packedByte false b)).writeOut (2 * b + 1) (t.packedByte true b)) s

theorem State.interleave_eq_interleaveTo (s : State) : s.interleave = s.interleaveTo (packedBytes s.w) := rfl

/-- The planes are only read (R104). -/
theorem State.packedByte_interleaveTo (s : State) (n : Nat) (slot : Bool) (b : Nat) :
    (s.interleaveTo n).packedByte slot b = s.packedByte slot b :=
  loop_keeps (P := fun t => t.packedByte slot b = s.packedByte slot b) (fun _ _ _ ht => ht) rfl

/-- The first `2n` bytes of OUT alternate between the planes, the others are as they were (R104). -/
theorem State.outByte_interleaveTo (s : State) (n a : Nat) :
    (s.interleaveTo n).outByte a = if a < 2 * n then s.packedByte (a % 2 == 1) (a / 2) else s.outByte a := by
  induction n with
  | zero => rfl
  | succ n ih =>
    have hsucc : s.interleaveTo (n + 1) =
        ((s.interleaveTo n).writeOut (2 * n) ((s.interleaveTo n).packedByte false n)).writeOut (2 * n + 1)
          ((s.interleaveTo n).packedByte true n) := rfl
    rw [hsucc, State.outByte_writeOut, State.outByte_writeOut, State.packedByte_interleaveTo,
      State.packedByte_interleaveTo, ih]
    by_cases hodd : a = 2 * n + 1
    · have hdiv : (2 * n + 1) / 2 = n := by omega
      have hmod : (2 * n + 1) % 2 = 1 := by omega
      rw [if_pos hodd, if_pos (by omega), hodd, hdiv, hmod]
      rfl
    · rw [if_neg hodd]
      by_cases heven : a = 2 * n
      · have hdiv : 2 * n / 2 = n := by omega
        have hmod : 2 * n % 2 = 0 := by omega
        rw [if_pos heven, if_pos (by omega), heven, hdiv, hmod]
        rfl
      · have hlt : a < 2 * (n + 1) ↔ a < 2 * n := by omega
        simp only [heven, if_false, hlt]

/-- Interleave as an equation per byte of OUT (R104). -/
theorem State.outByte_interleave (s : State) (a : Nat) :
    s.interleave.outByte a =
      if a < 16 * (s.w * s.w) then s.packedByte (a % 2 == 1) (a / 2) else s.outByte a := by
  have hsize : 2 * packedBytes s.w = 16 * (s.w * s.w) := by rw [packedBytes_eq]; omega
  rw [State.interleave_eq_interleaveTo, State.outByte_interleaveTo, hsize]

/-- Settles O32: an even byte of OUT is slot 0's, an odd one slot 1's. -/
theorem interleaveAlternatesTheSlots : Obligations.InterleaveAlternatesTheSlots := by
  refine fun s => ⟨fun b hb => ⟨?_, ?_⟩, fun a ha => ?_, (OnlyOut.interleave s).frame⟩
  · have hdiv : 2 * b / 2 = b := by omega
    have hmod : 2 * b % 2 = 0 := by omega
    rw [State.outByte_interleave, if_pos (by omega), hdiv, hmod]
    rfl
  · have hdiv : (2 * b + 1) / 2 = b := by omega
    have hmod : (2 * b + 1) % 2 = 1 := by omega
    rw [State.outByte_interleave, if_pos (by omega), hdiv, hmod]
    rfl
  · rw [State.outByte_interleave, if_neg (by omega)]

end Sys2Proof.Machine
end

section
/-! SUPPORT. The tile transposer (O33 to O35): `sigma` on the tiles of a `W` by `W` grid, the source of every byte of
OUT after a swap of blocks and after each turn of Transpose, and OUT after the OUTPUT step, R106 to R109. -/

namespace Sys2Proof.Machine

/-! ### The transposed position of a tile -/

/-- The transposed tile stands in row `k mod W` and column `k / W` (R107). -/
theorem sigma_row_and_column {w k : Nat} (hk : k < w * w) : sigma w k / w = k % w ∧ sigma w k % w = k / w :=
  row_and_column (Nat.pos_of_lt_mul_left hk) (k % w) (Nat.div_lt_of_lt_mul hk)

theorem sigma_lt {w k : Nat} (hk : k < w * w) : sigma w k < w * w := by
  have hw : 0 < w := Nat.pos_of_lt_mul_left hk
  obtain ⟨hrow, -⟩ := sigma_row_and_column hk
  exact (Nat.div_lt_iff_lt_mul hw).mp (hrow ▸ Nat.mod_lt k hw)

/-- Transposing a tile twice takes it back (R107). -/
theorem sigma_sigma {w k : Nat} (hk : k < w * w) : sigma w (sigma w k) = k := by
  obtain ⟨hrow, hcolumn⟩ := sigma_row_and_column hk
  rw [sigma, hrow, hcolumn]
  exact Nat.div_add_mod' k w

/-- The index formula of the swap loop is the transposed position: whole rows of the grid drop out mod `W*W` (R107). -/
theorem tilePartner_eq_sigma {w k : Nat} (hk : k < w * w) : tilePartner w k = sigma w k := by
  have hformula : k * w + k / w = sigma w k + k / w * (w * w) := by
    calc k * w + k / w = (k / w * w + k % w) * w + k / w := by rw [Nat.div_add_mod']
      _ = sigma w k + k / w * (w * w) := by
        rw [sigma, Nat.add_mul, Nat.mul_assoc]
        omega
  rw [tilePartner, hformula, Nat.add_mul_mod_self_right, Nat.mod_eq_of_lt (sigma_lt hk)]

/-! ### A swap of blocks -/

/-- The number that takes the place of `c` when `a` and `b` change places. -/
def exchange (a b c : Nat) : Nat := if c = a then b else if c = b then a else c

theorem exchange_left (a b : Nat) : exchange a b a = b := if_pos rfl

theorem exchange_right (a b : Nat) : exchange a b b = a := by
  unfold exchange
  split
  · next h => exact h
  · exact if_pos rfl

theorem exchange_of_ne {a b c : Nat} (ha : c ≠ a) (hb : c ≠ b) : exchange a b c = c := by
  rw [exchange, if_neg ha, if_neg hb]

theorem State.outByte_swapOut (s : State) (a b c : Nat) :
    (s.swapOut a b).outByte c = s.outByte (exchange a b c) := by
  rw [State.swapOut, State.outByte_writeOut, State.outByte_writeOut]
  by_cases hb : c = b
  · rw [if_pos hb, hb, exchange_right]
  · by_cases ha : c = a
    · rw [if_neg hb, if_pos ha, ha, exchange_left]
    · rw [if_neg hb, if_neg ha, exchange_of_ne ha hb]

/-- The block swap stopped after the first `n` bytes of the blocks. -/
def State.swapBlocksTo (s : State) (i j n : Nat) : State :=
  loop n (fun d t => t.swapOut (16 * i + d) (16 * j + d)) s

theorem State.swapBlocks_eq_swapBlocksTo (s : State) (i j : Nat) : s.swapBlocks i j = s.swapBlocksTo i j 16 := rfl

/-- Only the first `n` bytes of each block have moved. -/
theorem State.outByte_swapBlocksTo (s : State) (i j : Nat) {n : Nat} (hn : n ≤ 16) (a : Nat) :
    (s.swapBlocksTo i j n).outByte a =
      if a % 16 < n then s.outByte (16 * exchange i j (a / 16) + a % 16) else s.outByte a := by
  induction n generalizing a with
  | zero => rfl
  | succ n ih =>
    have hsucc : s.swapBlocksTo i j (n + 1) = (s.swapBlocksTo i j n).swapOut (16 * i + n) (16 * j + n) := rfl
    have ih := ih (by omega)
    obtain ⟨hdivi, hmodi⟩ : (16 * i + n) / 16 = i ∧ (16 * i + n) % 16 = n := by omega
    obtain ⟨hdivj, hmodj⟩ : (16 * j + n) / 16 = j ∧ (16 * j + n) % 16 = n := by omega
    rw [hsucc, State.outByte_swapOut]
    by_cases hi : a = 16 * i + n
    · subst hi
      rw [exchange_left, ih, hmodj, if_neg (Nat.lt_irrefl n), hdivi, hmodi, if_pos (Nat.lt_succ_self n),
        exchange_left]
    · by_cases hj : a = 16 * j + n
      · subst hj
        rw [exchange_right, ih, hmodi, if_neg (Nat.lt_irrefl n), hdivj, hmodj, if_pos (Nat.lt_succ_self n),
          exchange_right]
      · rw [exchange_of_ne hi hj, ih]
        by_cases hmod : a % 16 = n
        · rw [if_neg (by omega), if_pos (by omega), exchange_of_ne (by omega) (by omega),
            Nat.div_add_mod]
        · have hlt : a % 16 < n + 1 ↔ a % 16 < n := by omega
          simp only [hlt]

/-- A swap of blocks exchanges the block numbers and keeps the place in the block (R106). -/
theorem State.outByte_swapBlocks (s : State) (i j a : Nat) :
    (s.swapBlocks i j).outByte a = s.outByte (16 * exchange i j (a / 16) + a % 16) := by
  rw [State.swapBlocks_eq_swapBlocksTo, State.outByte_swapBlocksTo s i j (Nat.le_refl _),
    if_pos (Nat.mod_lt a (by decide))]

/-! ### The swap loop -/

/-- Where the block at `k` came from after `n` turns of the swap loop: a pair of tiles is in its final place once the
smaller of the two has had its turn (R107). -/
def tileSource (w n k : Nat) : Nat := if k < w * w ∧ (k < n ∨ sigma w k < n) then sigma w k else k

theorem tileSource_zero (w k : Nat) : tileSource w 0 k = k := if_neg (by simp)

theorem tileSource_all (w k : Nat) : tileSource w (w * w) k = if k < w * w then sigma w k else k := by
  have hiff : k < w * w ∧ (k < w * w ∨ sigma w k < w * w) ↔ k < w * w := ⟨And.left, fun h => ⟨h, .inl h⟩⟩
  simp only [tileSource, hiff]

/-- A turn leaves alone the tiles of the other pairs, and a pair that is in place (R107). -/
theorem tileSource_succ_of_settled {w n k : Nat}
    (h : k < w * w → k = n ∨ sigma w k = n → k < n ∨ sigma w k < n ∨ sigma w k = k) :
    tileSource w (n + 1) k = tileSource w n k := by
  rw [tileSource, tileSource]
  split <;> split <;> omega

/-- A turn at the smaller tile of a pair brings the two into place. -/
theorem tileSource_succ_of_lt {w n : Nat} (hn : n < w * w) (hlt : n < sigma w n) (k : Nat) :
    tileSource w (n + 1) k = tileSource w n (exchange n (sigma w n) k) := by
  have hback := sigma_sigma hn
  have hpartner := sigma_lt hn
  by_cases hleft : k = n
  · rw [hleft, exchange_left, tileSource, if_pos (by omega), tileSource, hback, if_neg (by omega)]
  · by_cases hright : k = sigma w n
    · rw [hright, exchange_right, tileSource, hback, if_pos (by omega), tileSource, if_neg (by omega)]
    · have hne (hk : k < w * w) : sigma w k ≠ n := fun h => hright (by rw [← h, sigma_sigma hk])
      rw [exchange_of_ne hleft hright]
      exact tileSource_succ_of_settled fun hk hpair => absurd hpair (not_or.mpr ⟨hleft, hne hk⟩)

/-- A turn at the larger tile of a pair, or at a tile of the diagonal, finds it in place. -/
theorem tileSource_succ_of_ge {w n : Nat} (hn : n < w * w) (hge : sigma w n ≤ n) (k : Nat) :
    tileSource w (n + 1) k = tileSource w n k := by
  refine tileSource_succ_of_settled fun hk hpair => ?_
  rcases hpair with rfl | hpartner
  · exact .inr (by omega)
  · have hle : k ≤ n := by rw [← sigma_sigma hk, hpartner]; exact hge
    omega

/-- Transpose stopped after the turns of the first `n` tiles. -/
def State.transposeTo (s : State) (n : Nat) : State :=
  loop n (fun i t => if i < tilePartner s.w i then t.swapBlocks i (tilePartner s.w i) else t) s

theorem State.transpose_eq_transposeTo (s : State) : s.transpose = s.transposeTo (s.w * s.w) := rfl

theorem State.transposeTo_succ (s : State) {n : Nat} (hn : n < s.w * s.w) :
    s.transposeTo (n + 1) =
      if n < sigma s.w n then (s.transposeTo n).swapBlocks n (sigma s.w n) else s.transposeTo n := by
  rw [State.transposeTo, loop_succ, tilePartner_eq_sigma hn]
  rfl

/-- Each turn of the swap loop keeps the place of a byte in its block (R106). -/
theorem State.outByte_transposeTo (s : State) {n : Nat} (hn : n ≤ s.w * s.w) (a : Nat) :
    (s.transposeTo n).outByte a = s.outByte (16 * tileSource s.w n (a / 16) + a % 16) := by
  induction n generalizing a with
  | zero => rw [tileSource_zero, Nat.div_add_mod]; rfl
  | succ n ih =>
    have ih := ih (Nat.le_of_succ_le hn)
    rw [State.transposeTo_succ s hn]
    split
    · next hlt =>
      have hmod : a % 16 < 16 := Nat.mod_lt a (by decide)
      rw [State.outByte_swapBlocks, ih, tileSource_succ_of_lt hn hlt, Nat.mul_add_div (by decide),
        Nat.div_eq_of_lt hmod, Nat.add_zero, Nat.mul_add_mod, Nat.mod_mod]
    · next hge => rw [ih, tileSource_succ_of_ge hn (Nat.not_lt.mp hge)]

/-- Transpose as an equation per byte of a tile (R107). -/
theorem State.outByte_transpose_tile (s : State) {k j : Nat} (hk : k < s.w * s.w) (hj : j < 16) :
    s.transpose.outByte (16 * k + j) = s.outByte (16 * sigma s.w k + j) := by
  obtain ⟨hdiv, hmod⟩ : (16 * k + j) / 16 = k ∧ (16 * k + j) % 16 = j := by omega
  rw [State.transpose_eq_transposeTo, State.outByte_transposeTo s (Nat.le_refl _), hdiv, hmod, tileSource_all,
    if_pos hk]

/-- The bytes beyond the tiles stay (R107). -/
theorem State.outByte_transpose_beyond (s : State) {a : Nat} (ha : 16 * (s.w * s.w) ≤ a) :
    s.transpose.outByte a = s.outByte a :=
  (OnlyOut.transpose s).beyond a (by unfold outBytes; omega)

theorem State.transpose_w (s : State) : s.transpose.w = s.w := by
  rw [(OnlyOut.transpose s).frame]
  rfl

/-- Settles O33, by the arithmetic of `sigma` and the swap loop's invariant `outByte_transposeTo`. -/
theorem transposeMovesBlocksToTransposedPlace : Obligations.TransposeMovesBlocksToTransposedPlace :=
  fun s => ⟨fun _ hk => ⟨tilePartner_eq_sigma hk, sigma_lt hk, sigma_sigma hk⟩,
    fun _ _ hk hj => s.outByte_transpose_tile hk hj,
    fun _ ha => s.outByte_transpose_beyond ha,
    (OnlyOut.transpose s).frame⟩

/-- Settles O34: a byte of a tile goes to the transposed tile and back, the others never move. -/
theorem transposeTwiceIsIdentity : Obligations.TransposeTwiceIsIdentity := by
  intro s a
  have hw := s.transpose_w
  by_cases ha : a < 16 * (s.w * s.w)
  · have hk : a / 16 < s.w * s.w := Nat.div_lt_of_lt_mul ha
    have hj : a % 16 < 16 := Nat.mod_lt a (by decide)
    rw [← Nat.div_add_mod a 16, State.outByte_transpose_tile _ (hw ▸ hk) hj, hw,
      State.outByte_transpose_tile s (sigma_lt hk) hj, sigma_sigma hk]
  · rw [State.outByte_transpose_beyond _ (by rw [hw]; omega), State.outByte_transpose_beyond s (by omega)]

/-! ### The OUTPUT step -/

/-- The bytes of OUT after the interleave and the transpose (R109). -/
theorem State.outByte_output (s : State) {k r : Nat} (p : Bool) (hk : k < s.w * s.w) (hr : r < 8) :
    s.interleave.transpose.outByte (16 * k + 2 * r + p.toNat) =
      s.packedByte p (k % s.w * (8 * s.w) + 8 * (k / s.w) + r) := by
  have hw : s.interleave.w = s.w := by
    rw [(OnlyOut.interleave s).frame]
    rfl
  have hslot := p.toNat_lt
  have hsigma : sigma s.w k < s.w * s.w := sigma_lt hk
  have hbyte : (16 * sigma s.w k + (2 * r + p.toNat)) / 2 = k % s.w * (8 * s.w) + 8 * (k / s.w) + r := by
    calc (16 * sigma s.w k + (2 * r + p.toNat)) / 2 = 8 * sigma s.w k + r := by omega
      _ = k % s.w * (8 * s.w) + 8 * (k / s.w) + r := by
        rw [sigma, Nat.mul_left_comm (k % s.w) 8]
        omega
  have hparity : ((16 * sigma s.w k + (2 * r + p.toNat)) % 2 == 1) = p := by
    have hmod : (16 * sigma s.w k + (2 * r + p.toNat)) % 2 = p.toNat := by omega
    rw [hmod]
    cases p <;> rfl
  rw [Nat.add_assoc, State.outByte_transpose_tile _ (hw ▸ hk) (by omega), hw, State.outByte_interleave,
    if_pos (by omega), hbyte, hparity]

/-- The engine's turn at the stage OUTPUT writes the whole output (R119). -/
theorem step_of_output {s : State} (hturn : s.engineNext = true) (hb : s.status = .busy) (hstage : s.stage = .output) :
    step s = .next { s.pop.interleave.transpose with stage := .finish } := by
  have hparse : s.parse = none := by rw [State.parse, if_pos hb, hstage]
  have hpop : s.pop.stage = .output := hstage
  rw [step_of_work hturn hb hparse, State.engineWork, hpop]

/-- Settles O35: the bytes of the OUTPUT step over the state with its event taken. -/
theorem outputStageClosedForm : Obligations.OutputStageClosedForm := by
  intro s hturn hb hstage
  have honly := OnlyOut.output s.pop
  refine ⟨_, step_of_output hturn hb hstage, congrArg (fun t : State => { t with stage := .finish }) honly.frame,
    fun k r p hk hr => s.pop.outByte_output p hk hr, fun a ha => honly.beyond a ?_⟩
  have hsize : outBytes s.pop.w = 16 * (s.w * s.w) := Nat.mul_comm ..
  omega

end Sys2Proof.Machine
end

section
/-! SUPPORT. The single steps of the sequencer: the HEADER code words (O15, O16), the mode codes (O22), the START command
(O23, O24) and FINISH (O36), R110 to R120. -/

namespace Sys2Proof.Machine

/-! ### HEADER and MODE -/

/-- HDR.WIDTH1 is written and WIDTH2 follows (R113). -/
theorem exec_hdrWidth1 {s : State} {w : BitVec 4} (hparse : s.parse = some .width1) :
    exec (.hdrWidth1 w) s = .next { s with width1 := w, stage := .header .width2 } :=
  State.inPlace_of_parse hparse _

/-- Where the second width agrees, HDR.WIDTH2 is written and ORDER follows (R113). -/
theorem exec_hdrWidth2_of_agree {s : State} (hparse : s.parse = some .width2) :
    exec (.hdrWidth2 s.width1) s = .next { s with width2 := s.width1, stage := .header .order } := by
  rw [exec, execHdrWidth2, State.inPlace_of_parse hparse, if_pos rfl]

/-- Where the second width differs, HDR.WIDTH2 is written and the decode aborts (R113). -/
theorem exec_hdrWidth2_of_differ {s : State} {v : BitVec 4} (hparse : s.parse = some .width2) (hv : v ≠ s.width1) :
    exec (.hdrWidth2 v) s = .next (State.abort .widthMismatch { s with width2 := v }) := by
  rw [exec, execHdrWidth2, State.inPlace_of_parse hparse, if_neg hv]

/-- HDR.ORDER is written and PLANE_A follows, in the primary slot (R114, R115). -/
theorem exec_hdrOrder {s : State} {o : Bool} (hparse : s.parse = some .order) :
    exec (.hdrOrder o) s = .next { s with order := o, slot := o, stage := .planeA .start } :=
  State.inPlace_of_parse hparse _

/-- Settles O15: each field's code word stands in its parse state, and the widths agree. -/
theorem headerFieldsComplete : Obligations.HeaderFieldsComplete := by
  refine ⟨fun s w => exec_hdrWidth1, fun s v hparse hv => ?_, fun s o => exec_hdrOrder⟩
  subst hv
  exact exec_hdrWidth2_of_agree hparse

/-- An abort writes what the end of a decode writes (R125). -/
theorem EndsFrom.abort (e : ErrCode) (s : State) : EndsFrom s (State.abort e s) := rfl

/-- FINISH writes what the end of a decode writes (R120). -/
theorem EndsFrom.finishDecode (s : State) : EndsFrom s s.finishDecode := rfl

/-- Settles O16: the differing width's meaning is the abort, after the field is written. -/
theorem widthMismatchAborts : Obligations.WidthMismatchAborts := by
  intro s v hparse hv
  exact ⟨_, exec_hdrWidth2_of_differ hparse hv, rfl, rfl, rfl, rfl, rfl, rfl, .abort ..⟩

/-- Settles O22: each of the three codes stands at MODE and sets its own value. -/
theorem modeCodesComplete : Obligations.ModeCodesComplete := by
  intro s i v hparse hi
  cases i with
  | mode0 | mode1 | mode2 => cases hi; exact State.inPlace_of_parse hparse _
  | _ => cases hi

/-! ### START and FINISH -/

/-- Settles O23: the command's meaning outside BUSY is `Start()`, whatever its reserved bits. -/
theorem startCommandStartsADecode : Obligations.StartCommandStartsADecode := by
  intro s x hnb
  rw [exec, execCmdStart, if_neg hnb]
  rfl

/-- Settles O24: the CTRL write is the START command, which BUSY turns into no more than the event taken. -/
theorem startIsIgnoredWhileBusy : Obligations.StartIsIgnoredWhileBusy := by
  intro s v rest hb hpending hstart
  rw [step_start_of_busy hb hpending hstart, State.pop_eq_of_pending hpending]

/-- The engine's turn at the stage FINISH ends the decode (R120). -/
theorem step_of_finish {s : State} (hturn : s.engineNext = true) (hb : s.status = .busy) (hstage : s.stage = .finish) :
    step s = .next s.pop.finishDecode := by
  have hparse : s.parse = none := by rw [State.parse, if_pos hb, hstage]
  have hpop : s.pop.stage = .finish := hstage
  rw [step_of_work hturn hb hparse, State.engineWork, hpop]

/-- OUT_COUNT holds the size of every output (R31). -/
theorem State.toNat_outCount_finishDecode (s : State) : s.finishDecode.outCount.toNat = outBytes s.w := by
  have hle := s.outBytes_le
  unfold Config.outMemBytes at hle
  rw [State.finishDecode_outCount, BitVec.toNat_ofNat]
  omega

/-- Settles O36: FINISH is the engine's turn, and its count fits the register. -/
theorem finishRecordsTheResult : Obligations.FinishRecordsTheResult := by
  intro s hturn hb hstage
  have hcount : s.pop.finishDecode.outCount.toNat = 16 * (s.w * s.w) :=
    s.pop.toNat_outCount_finishDecode.trans (Nat.mul_comm ..)
  exact ⟨_, step_of_finish hturn hb hstage, hcount, rfl, rfl, rfl, rfl, rfl, .finishDecode _⟩

end Sys2Proof.Machine
end

section
/-! SUPPORT. Decodes step by step, whatever the host does between the engine's turns: the streams whose widths differ
(O41) and the streams of width 0 (O42), R113, R121, R126, R128. -/

namespace Sys2Proof.Machine

/-! ### The bits of the stream by their place -/

/-- The bit of the stream after the first `c` (R41, R73). -/
def State.streamBit (s : State) (c : Nat) : Bool := (s.inByte (c / 8)).getLsbD (7 - c % 8)

theorem State.streamBit_congr {s t : State} (hmem : t.inMem = s.inMem) (c : Nat) : t.streamBit c = s.streamBit c := by
  simp only [State.streamBit, State.inByte, hmem]

/-- ReadBit answers the bit at the cursor's place (R70, R73). -/
theorem State.readBit_of_bitPos_lt {s : State} (h : s.bitPos < s.streamBits) :
    s.readBit = some (s.streamBit s.bitPos, s.consume 1) := by
  have hbit : s.streamBit s.bitPos = (s.inByte s.byteIndex.toNat).getLsbD s.bitIndex.toNat := by
    rw [State.streamBit, ← State.byteIndex_eq_bitPos_div, ← State.bitIndex_eq_bitPos_mod]
  have hlt : s.byteIndex.toNat < s.inLen.toNat := by
    rw [State.byteIndex_eq_bitPos_div]
    exact Nat.div_lt_of_lt_mul h
  by_cases h0 : s.bitIndex = 0
  · have hread := State.readBit_of_bitIndex_zero hlt h0
    simp [State.consume, hread, hbit, h0]
  · have hread := State.readBit_of_bitIndex_ne_zero hlt h0
    simp [State.consume, hread, hbit]

/-- What is seen at the cursor is the stream from the cursor's place on. -/
theorem State.peekBits_eq_map {s : State} {n : Nat} (h : s.bitPos + n ≤ s.streamBits) :
    s.peekBits n = (List.range n).map fun i => s.streamBit (s.bitPos + i) := by
  induction n generalizing s with
  | zero => rfl
  | succ n ih =>
    have hread := State.readBit_of_bitPos_lt (s := s) (by omega)
    have hpos := (State.readBit_bitPos hread).1
    have hmem : (s.consume 1).inMem = s.inMem := by rw [State.consume_frame]
    have hnext := ih (s := s.consume 1) (by rw [hpos, State.streamBits_consume]; omega)
    simp only [State.peekBits, hread, hnext, hpos, State.streamBit_congr hmem, List.range_succ_eq_map, List.map_cons,
      List.map_map, Nat.add_zero]
    refine congrArg _ (List.map_congr_left fun i _ => ?_)
    rw [Function.comp_apply, Nat.succ_eq_add_one, Nat.add_right_comm, Nat.add_assoc]

/-- The bits of a nibble of a byte (R42). -/
theorem bitsOf_nibble (v : Byte) (k : Nat) :
    bitsOf (v.extractLsb' k 4) = [v.getLsbD (k + 3), v.getLsbD (k + 2), v.getLsbD (k + 1), v.getLsbD k] := by
  simp [bitsOf, BitVec.msb_eq_getLsbD_last]

/-! ### Engine turns under a host -/

theorem SameButHost.refl (s : State) : SameButHost s s := rfl

theorem SameButHost.trans {s t u : State} (h : SameButHost s t) (h' : SameButHost t u) : SameButHost s u := by
  unfold SameButHost at *
  rw [h] at h'
  exact h'

/-- The events left are accesses of the interface and engine turns. -/
def State.hostKeepsOn (s : State) : Prop := s.hostInInterface ∧ .reset ∉ s.pending

theorem State.hostKeepsOn.of_tail {s t : State} (h : s.hostKeepsOn) (ht : t.pending = s.pending.tail) :
    t.hostKeepsOn := by
  obtain ⟨haccess, hreset⟩ := h
  have hmem {e : Event} (he : e ∈ t.pending) : e ∈ s.pending := List.mem_of_mem_tail (ht ▸ he)
  exact ⟨fun a ha => haccess a (hmem ha), fun hr => hreset (hmem hr)⟩

/-- While BUSY the host's accesses lead to the engine's next turn and change only the host's own record (R49). -/
theorem whileBusy_to_engineNext {s : State} (hb : s.status = .busy) (hhost : s.hostKeepsOn) :
    ∃ n t, whileBusy n s t ∧ SameButHost s t ∧ t.engineNext = true ∧ t.hostKeepsOn := by
  obtain ⟨events, hevents⟩ : ∃ events, s.pending = events := ⟨_, rfl⟩
  induction events generalizing s with
  | nil => exact ⟨0, s, rfl, .refl s, by simp [State.engineNext, hevents], hhost⟩
  | cons e rest ih =>
    cases e with
    | engine => exact ⟨0, s, rfl, .refl s, by simp [State.engineNext, hevents], hhost⟩
    | reset => exact absurd (by simp [hevents]) hhost.2
    | access a =>
      obtain ⟨u, hstep, hrest, hsame⟩ := busyAccessesChangeNothing s a rest hb hevents (hhost.1 a (by simp [hevents]))
      have hbu : u.status = .busy := by rw [hsame]; exact hb
      obtain ⟨n, t, hrun, ht, hturn, hkeeps⟩ := ih hbu (hhost.of_tail (by rw [hrest, hevents]; rfl)) hrest
      exact ⟨n + 1, t, ⟨hb, u, hstep, hrun⟩, hsame.trans ht, hturn, hkeeps⟩

/-- The decode started at `s` gets to a state of which `P` holds, with no reset to come. -/
def State.decodeGetsTo (s : State) (P : State → Prop) : Prop :=
  ∃ n t, s.decodeReaches n t ∧ t.hostKeepsOn ∧ P t

theorem State.decodeGetsTo.exists_reached {s : State} {P : State → Prop} (h : s.decodeGetsTo P) :
    ∃ n t, s.decodeReaches n t ∧ P t := by
  obtain ⟨n, t, hrun, _, ht⟩ := h
  exact ⟨n, t, hrun, ht⟩

/-- A decode started at `s` that stands at stage `g` with `c` bits read, the two width fields `w1` and `w2`, and nothing
of OUT written. -/
structure DecodeAt (s : State) (g : Stage) (c : Nat) (w1 w2 : BitVec 4) (t : State) : Prop where
  status : t.status = .busy
  stage : t.stage = g
  bitPos : t.bitPos = c
  width1 : t.width1 = w1
  width2 : t.width2 = w2
  inMem : t.inMem = s.inMem
  inLen : t.inLen = s.inLen
  outMem : t.outMem = s.outMem
  outEra : t.outEra = s.outEra
  mode_legal : t.mode ≠ 3
  /-- the later fields of HDR are still 0 in HEADER (R110) -/
  unset : (∃ f, g = .header f) → t.order = false ∧ t.mode = 0

theorem DecodeAt.start (s : State) : DecodeAt s (.header .width1) 0 0 0 s.pop.start := by
  constructor
  case mode_legal => simp
  case unset => simp
  all_goals rfl

section
variable {s t u : State} {g : Stage} {c : Nat} {w1 w2 : BitVec 4}

theorem DecodeAt.pop (h : DecodeAt s g c w1 w2 t) : DecodeAt s g c w1 w2 t.pop := { h with }

theorem DecodeAt.sameButHost (h : DecodeAt s g c w1 w2 t) (htu : SameButHost t u) : DecodeAt s g c w1 w2 u := by
  rw [htu]; exact { h with }

/-- The engine's next turn is reached under every host, and takes the decode on. -/
theorem State.decodeGetsTo.turn {Q : State → Prop} (h : s.decodeGetsTo (DecodeAt s g c w1 w2))
    (hturn : ∀ t, DecodeAt s g c w1 w2 t → t.engineNext = true → ∃ u, step t = .next u ∧ Q u) : s.decodeGetsTo Q := by
  obtain ⟨n, t, ⟨v, hv, hrun⟩, hhost, hat⟩ := h
  obtain ⟨k, t', hrun', hsame, hnext, hhost'⟩ := whileBusy_to_engineNext hat.status hhost
  have hat' := hat.sameButHost hsame
  obtain ⟨u, hstep, hu⟩ := hturn t' hat' hnext
  have hlast : whileBusy 1 t' u := ⟨hat'.status, u, hstep, rfl⟩
  exact ⟨n + k + 1, u, ⟨v, hv, whileBusy_append (whileBusy_append hrun hrun') hlast⟩,
    hhost'.of_tail ((stepBy_of_step hstep).pending hat'.status), hu⟩

/-! ### One code word, or one stage -/

theorem DecodeAt.streamBits (h : DecodeAt s g c w1 w2 t) : t.streamBits = s.streamBits := by
  simp only [State.streamBits, h.inLen]

theorem DecodeAt.peekBits (h : DecodeAt s g c w1 w2 t) {n : Nat} (hn : c + n ≤ s.streamBits) :
    t.peekBits n = (List.range n).map fun i => s.streamBit (c + i) := by
  rw [State.peekBits_eq_map (by rw [h.bitPos, h.streamBits]; exact hn), h.bitPos]
  exact List.map_congr_left fun i _ => State.streamBit_congr h.inMem _

theorem DecodeAt.consume (h : DecodeAt s g c w1 w2 t) {n : Nat} (hn : c + n ≤ s.streamBits) :
    DecodeAt s g (c + n) w1 w2 (t.consume n) := by
  have hpos : (t.consume n).bitPos = c + n := by
    rw [State.bitPos_consume_eq, h.peekBits hn, h.bitPos, List.length_map, List.length_range]
  have hframe := t.consume_frame n
  generalize t.consume n = u at hpos hframe ⊢
  rw [hframe] at hpos ⊢
  exact { h with bitPos := hpos }

/-- Where the stream holds a code word of the parse state, the turn is that code word's meaning, past its bits (R55). -/
theorem DecodeAt.step_code (h : DecodeAt s g c w1 w2 t) (hturn : t.engineNext = true) {i : Instr}
    (hparse : t.parse = some i.place) (hlen : c + i.codeLength ≤ s.streamBits)
    (hbits : (List.range i.codeLength).map (fun j => s.streamBit (c + j)) = encode i) :
    step t = exec i (t.pop.consume i.codeLength)
      ∧ DecodeAt s g (c + i.codeLength) w1 w2 (t.pop.consume i.codeLength)
      ∧ (t.pop.consume i.codeLength).parse = some i.place := by
  have hseen : (t.peekBits window).take i.codeLength = encode i := by
    rw [State.take_peekBits (m := window) (codeLength_le i), h.peekBits hlen, hbits]
  have hdec : decode i.place (t.peekBits window) = .code i ((t.peekBits window).drop i.codeLength) :=
    decode_eq_code_iff.mpr ⟨rfl, by rw [← hseen, List.take_append_drop]⟩
  exact ⟨stepRunsTheDecodedCodeWord t i.place i _ hturn hparse hdec, h.pop.consume hlen,
    (State.parse_consume ..).trans hparse⟩

/-- A turn that changes the stage alone. -/
theorem DecodeAt.withStage (h : DecodeAt s g c w1 w2 t) {g' : Stage} (hg : ∀ f, g' ≠ .header f) :
    DecodeAt s g' c w1 w2 { t with stage := g' } :=
  { h with stage := rfl, unset := fun ⟨f, hf⟩ => absurd hf (hg f) }

/-! ### HEADER -/

/-- The first field of HEADER is the high nibble of byte 0 (R113). -/
theorem DecodeAt.turn_width1 (h : DecodeAt s (.header .width1) 0 w1 w2 t) (hturn : t.engineNext = true)
    (hlen : 1 ≤ s.inLen.toNat) :
    ∃ u, step t = .next u ∧ DecodeAt s (.header .width2) 4 ((s.inByte 0).extractLsb' 4 4) w2 u := by
  have hparse : t.parse = some .width1 := by simp [State.parse, h.status, h.stage]
  obtain ⟨hstep, hat, hplace⟩ := h.step_code (i := .hdrWidth1 ((s.inByte 0).extractLsb' 4 4)) hturn hparse
    (by simp only [State.streamBits, Instr.codeLength]; omega) (bitsOf_nibble ..).symm
  rw [exec_hdrWidth1 hplace] at hstep
  exact ⟨_, hstep, { hat with width1 := rfl, stage := rfl, unset := fun _ => hat.unset ⟨_, rfl⟩ }⟩

/-- The second field of HEADER is the low nibble of byte 0 (R113). -/
theorem DecodeAt.step_width2 (h : DecodeAt s (.header .width2) 4 w1 w2 t) (hturn : t.engineNext = true)
    (hlen : 1 ≤ s.inLen.toNat) :
    step t = exec (.hdrWidth2 ((s.inByte 0).extractLsb' 0 4)) (t.pop.consume 4)
      ∧ DecodeAt s (.header .width2) 8 w1 w2 (t.pop.consume 4) ∧ (t.pop.consume 4).parse = some .width2 := by
  have hparse : t.parse = some .width2 := by simp [State.parse, h.status, h.stage]
  exact h.step_code (i := .hdrWidth2 ((s.inByte 0).extractLsb' 0 4)) hturn hparse
    (by simp only [State.streamBits, Instr.codeLength]; omega) (bitsOf_nibble ..).symm

/-- An agreeing second field goes on to ORDER (R113). -/
theorem DecodeAt.turn_width2 (h : DecodeAt s (.header .width2) 4 w1 w2 t) (hturn : t.engineNext = true)
    (hlen : 1 ≤ s.inLen.toNat) (hagree : (s.inByte 0).extractLsb' 0 4 = w1) :
    ∃ u, step t = .next u ∧ DecodeAt s (.header .order) 8 w1 w1 u := by
  obtain ⟨hstep, hat, hplace⟩ := h.step_width2 hturn hlen
  rw [hagree, ← hat.width1, exec_hdrWidth2_of_agree hplace] at hstep
  exact ⟨_, hstep, { hat with width2 := hat.width1, stage := rfl, unset := fun _ => hat.unset ⟨_, rfl⟩ }⟩

/-- A decode from START on under such a host reads the first field. -/
theorem State.decodeGetsTo_width2 (hs : s.aboutToStart) (hhost : s.hostKeepsOn) (hlen : 1 ≤ s.inLen.toNat) :
    s.decodeGetsTo (DecodeAt s (.header .width2) 4 ((s.inByte 0).extractLsb' 4 4) 0) := by
  have hstart : s.decodeGetsTo (DecodeAt s (.header .width1) 0 0 0) :=
    ⟨0, s.pop.start, ⟨_, step_of_aboutToStart hs, rfl⟩, hhost.of_tail rfl, .start s⟩
  exact hstart.turn fun t hat hturn => hat.turn_width1 hturn hlen

end

/-- Settles O41: two turns of the engine, and the abort finds the cursor after the eighth bit. -/
theorem differingWidthsEndTheDecode : Obligations.DifferingWidthsEndTheDecode := by
  intro s hs haccess hreset hlen hdiffer
  refine ((State.decodeGetsTo_width2 hs ⟨haccess, hreset⟩ hlen).turn fun t hat hturn => ?_).exists_reached
  obtain ⟨hstep, hat', hplace⟩ := hat.step_width2 hturn hlen
  rw [exec_hdrWidth2_of_differ hplace (by rw [hat'.width1]; exact hdiffer.symm)] at hstep
  have hbyte : (t.pop.consume 4).byteIndex.toNat = 1 := by rw [State.byteIndex_eq_bitPos_div, hat'.bitPos]
  have hbit : (t.pop.consume 4).bitIndex.toNat = 7 := by rw [State.bitIndex_eq_bitPos_mod, hat'.bitPos]
  obtain ⟨horder, hmode⟩ := hat'.unset ⟨_, rfl⟩
  exact ⟨_, hstep, rfl, rfl, BitVec.eq_of_toNat_eq hbyte, BitVec.eq_of_toNat_eq hbit, hat'.width1, rfl, horder, hmode,
    hat'.outMem, hat'.outEra⟩

/-! ### Width 0 -/

section
variable {s : State} (hw : s.w = 0)
include hw

/-- A plane of width 0 is empty: nothing is packed, decoded, merged or put out (R121). -/
theorem State.packPlane_of_w_zero (slot : Bool) : s.packPlane slot = s := by
  simp [State.packPlane, State.deinterleave, hw, packUnits, State.writePackedFrom]

theorem State.grayPlane_of_w_zero (slot : Bool) : s.grayPlane slot = s := by
  rw [State.grayPlane, hw]; rfl

theorem State.xorPlanes_of_w_zero : s.xorPlanes = s := by
  rw [State.xorPlanes, hw]; rfl

theorem State.merged_of_w_zero : s.merged = s := by
  simp only [State.merged, State.mergeMode0, State.mergeMode1, State.mergeMode2, State.grayPlane_of_w_zero hw,
    State.xorPlanes_of_w_zero hw, ite_self]

theorem State.output_of_w_zero : s.interleave.transpose = s := by
  have hinterleave : s.interleave = s := by rw [State.interleave, hw]; rfl
  rw [hinterleave, State.transpose, hw]; rfl

/-- A plane of width 0 is full before its first unit (R77, R121). -/
theorem State.parse_of_w_zero (hb : s.status = .busy) (hs : s.stage.inBody) : s.parse = none := by
  rw [State.parse_of_inBody hb hs, State.bodyParse, hw]
  exact if_neg (Nat.not_lt_zero _)

end

/-! ### The code words of a stream of width 0 -/

/-- The PMODE code of a bit (R60, R76). -/
theorem exists_pmode_of_bit (m : Bool) :
    ∃ i : Instr, i.place = .planeStart ∧ encode i = [m]
      ∧ ∀ t, exec i t = t.inPlace .planeStart (.next (t.openPlane m)) := by
  cases m with
  | false => exact ⟨.pmodeRun, rfl, rfl, fun _ => rfl⟩
  | true => exact ⟨.pmodeLit, rfl, rfl, fun _ => rfl⟩

/-- The mode code of two bits, of which it may have one only (R63). -/
theorem exists_mode_of_bits (b b' : Bool) :
    ∃ (i : Instr) (v : BitVec 2), i.place = .mode ∧ v ≠ 3 ∧ encode i = (if b then [b, b'] else [b])
      ∧ ∀ t, exec i t = t.inPlace .mode (.next (t.setMode v)) := by
  cases b with
  | false => exact ⟨.mode0, 0, rfl, by decide, rfl, fun _ => rfl⟩
  | true =>
    cases b' with
    | false => exact ⟨.mode1, 1, rfl, by decide, rfl, fun _ => rfl⟩
    | true => exact ⟨.mode2, 2, rfl, by decide, rfl, fun _ => rfl⟩

section
variable {s t : State} {g : Stage} {c : Nat} {w1 w2 : BitVec 4}

theorem DecodeAt.turn_order (h : DecodeAt s (.header .order) c w1 w2 t) (hturn : t.engineNext = true)
    (hlen : c + 1 ≤ s.streamBits) : ∃ u, step t = .next u ∧ DecodeAt s (.planeA .start) (c + 1) w1 w2 u := by
  have hparse : t.parse = some .order := by simp [State.parse, h.status, h.stage]
  obtain ⟨hstep, hat, hplace⟩ := h.step_code (i := .hdrOrder (s.streamBit c)) hturn hparse hlen rfl
  rw [exec_hdrOrder hplace] at hstep
  exact ⟨_, hstep, { hat with stage := rfl, unset := fun ⟨_, hf⟩ => by simp at hf }⟩

theorem DecodeAt.turn_planeStart (h : DecodeAt s g c w1 w2 t) (hg : g = .planeA .start ∨ g = .planeB .start)
    (hturn : t.engineNext = true) (hlen : c + 1 ≤ s.streamBits) :
    ∃ u, step t = .next u ∧ DecodeAt s g.body (c + 1) w1 w2 u := by
  obtain ⟨i, hi, hbits, hexec⟩ := exists_pmode_of_bit (s.streamBit c)
  have hone : i.codeLength = 1 := by rw [← encode_length, hbits]; rfl
  have hparse : t.parse = some i.place := by
    rcases hg with rfl | rfl <;> simp [State.parse, h.status, h.stage, hi]
  obtain ⟨hstep, hat, hplace⟩ := h.step_code hturn hparse (hone ▸ hlen) (by rw [hone, hbits]; rfl)
  rw [hexec, State.inPlace_of_parse (hi ▸ hplace)] at hstep
  rw [hone] at hstep hat
  have hbody (f : HeaderField) : g.body ≠ .header f := by rcases hg with rfl | rfl <;> simp [Stage.body]
  exact ⟨_, hstep, { hat with stage := congrArg Stage.body hat.stage, unset := fun ⟨f, hf⟩ => absurd hf (hbody f) }⟩

/-- The mode code has a second bit exactly where its first is set (R63). -/
theorem DecodeAt.turn_mode (h : DecodeAt s .mode c w1 w2 t) (hturn : t.engineNext = true)
    (hlen : c + 2 ≤ s.streamBits) :
    ∃ u, step t = .next u
      ∧ DecodeAt s (.planeB .start) (c + if s.streamBit c then 2 else 1) w1 w2 u := by
  obtain ⟨i, v, hi, hv, hbits, hexec⟩ := exists_mode_of_bits (s.streamBit c) (s.streamBit (c + 1))
  have hsize : i.codeLength = if s.streamBit c then 2 else 1 := by
    rw [← encode_length, hbits]; split <;> rfl
  have hparse : t.parse = some i.place := by simp [State.parse, h.status, h.stage, hi]
  have hfits : c + i.codeLength ≤ s.streamBits := by rw [hsize]; split <;> omega
  have hseen : (List.range i.codeLength).map (fun j => s.streamBit (c + j)) = encode i := by
    rw [hsize, hbits]; split <;> rfl
  obtain ⟨hstep, hat, hplace⟩ := h.step_code hturn hparse hfits hseen
  rw [hexec, State.inPlace_of_parse (hi ▸ hplace)] at hstep
  rw [hsize] at hstep hat
  exact ⟨_, hstep, { hat with stage := rfl, mode_legal := hv, unset := fun ⟨_, hf⟩ => by simp at hf }⟩

/-! ### The stages of a stream of width 0 -/

theorem DecodeAt.w_eq_zero (h : DecodeAt s g c 0 w2 t) : t.w = 0 := by rw [State.w_eq, h.width1]; rfl

theorem DecodeAt.turn_body (h : DecodeAt s g c 0 w2 t) (hturn : t.engineNext = true) {g' : Stage}
    (hg : g = .planeA .body ∧ g' = .mode ∨ g = .planeB .body ∧ g' = .merge) :
    ∃ u, step t = .next u ∧ DecodeAt s g' c 0 w2 u := by
  have hbody : t.stage.inBody := by rw [h.stage]; exact hg.imp And.left And.left
  obtain ⟨g₀, hnext, hwork⟩ := State.engineWork_of_inBody (s := t.pop) hbody
  have hg₀ : g₀ = g' := by
    rw [show t.pop.stage = g from h.stage] at hnext
    rcases hg with ⟨rfl, rfl⟩ | ⟨rfl, rfl⟩ <;> simpa using hnext
  rw [State.packPlane_of_w_zero h.pop.w_eq_zero, hg₀] at hwork
  have hparse := State.parse_of_w_zero h.w_eq_zero h.status hbody
  exact ⟨_, (step_of_work hturn h.status hparse).trans hwork,
    h.pop.withStage (by rcases hg with ⟨_, rfl⟩ | ⟨_, rfl⟩ <;> simp)⟩

theorem DecodeAt.turn_merge (h : DecodeAt s .merge c 0 w2 t) (hturn : t.engineNext = true) :
    ∃ u, step t = .next u ∧ DecodeAt s .output c 0 w2 u := by
  have hstep := step_of_merge hturn h.status h.stage h.mode_legal
  rw [State.merged_of_w_zero h.pop.w_eq_zero] at hstep
  exact ⟨_, hstep, h.pop.withStage (by simp)⟩

theorem DecodeAt.turn_output (h : DecodeAt s .output c 0 w2 t) (hturn : t.engineNext = true) :
    ∃ u, step t = .next u ∧ DecodeAt s .finish c 0 w2 u := by
  have hstep := step_of_output hturn h.status h.stage
  rw [State.output_of_w_zero h.pop.w_eq_zero] at hstep
  exact ⟨_, hstep, h.pop.withStage (by simp)⟩

/-- A byte 0 of zero bits gives two widths of 0. -/
theorem State.decodeGetsTo_order_of_zero (hs : s.aboutToStart) (hhost : s.hostKeepsOn) (hlen : 1 ≤ s.inLen.toNat)
    (hzero : s.inByte 0 = 0) : s.decodeGetsTo (DecodeAt s (.header .order) 8 0 0) := by
  have hwidth2 := State.decodeGetsTo_width2 hs hhost hlen
  rw [hzero] at hwidth2
  exact hwidth2.turn fun t hat hturn => hat.turn_width2 hturn hlen (by rw [hzero]; rfl)

/-- Both planes of width 0 are read in three bits and the mode code, and the stages that follow read none (R121). -/
theorem State.decodeGetsTo_finish_of_zero (hs : s.aboutToStart) (hhost : s.hostKeepsOn) (hlen : 2 ≤ s.inLen.toNat)
    (hzero : s.inByte 0 = 0) :
    s.decodeGetsTo (DecodeAt s .finish (10 + (if s.streamBit 10 then 2 else 1) + 1) 0 0) := by
  have hbits : 16 ≤ s.streamBits := by unfold State.streamBits; omega
  have hmode : (if s.streamBit 10 then 2 else 1) ≤ 2 := by split <;> decide
  have horder := State.decodeGetsTo_order_of_zero hs hhost (by omega) hzero
  have hplaneA := horder.turn fun t hat hturn => hat.turn_order hturn (by omega)
  have hbodyA := hplaneA.turn fun t hat hturn => hat.turn_planeStart (.inl rfl) hturn (by omega)
  have hatMode := hbodyA.turn fun t hat hturn => hat.turn_body hturn (.inl ⟨rfl, rfl⟩)
  have hplaneB : s.decodeGetsTo (DecodeAt s (.planeB .start) (10 + if s.streamBit 10 then 2 else 1) 0 0) :=
    hatMode.turn fun t hat hturn => hat.turn_mode hturn (by omega)
  have hbodyB := hplaneB.turn fun t hat hturn => hat.turn_planeStart (.inr rfl) hturn (by omega)
  have hmerge := hbodyB.turn fun t hat hturn => hat.turn_body hturn (.inr ⟨rfl, rfl⟩)
  have houtput := hmerge.turn fun t hat hturn => hat.turn_merge hturn
  exact houtput.turn fun t hat hturn => hat.turn_output hturn

end

/-- Settles O42: the turns of the decode one after the other, to FINISH, or to the end of a stream of one byte. -/
theorem widthZeroDecodesToNothing : Obligations.WidthZeroDecodesToNothing := by
  constructor
  · intro s hs haccess hreset hlen hzero
    refine ((State.decodeGetsTo_finish_of_zero hs ⟨haccess, hreset⟩ hlen hzero).turn fun t hat hturn =>
      ⟨_, step_of_finish hturn hat.status hat.stage, ?_⟩).exists_reached
    have hcount : t.pop.finishDecode.outCount = 0 := by rw [State.finishDecode_outCount, hat.pop.w_eq_zero]; rfl
    have hpos : t.pop.finishDecode.bitPos = if (s.inByte 1).getLsbD 5 then 13 else 12 := by
      calc t.pop.finishDecode.bitPos = 10 + (if s.streamBit 10 then 2 else 1) + 1 := hat.bitPos
        _ = if s.streamBit 10 then 13 else 12 := by split <;> rfl
    exact ⟨rfl, hcount, hat.outMem, hat.outEra, hpos, rfl, rfl⟩
  · intro s hs haccess hreset hlen hzero
    refine ((State.decodeGetsTo_order_of_zero hs ⟨haccess, hreset⟩ (Nat.le_of_eq hlen.symm) hzero).turn
      fun t hat hturn => ?_).exists_reached
    have hnone : t.peekBits window = [] := by
      refine List.eq_nil_of_length_eq_zero ?_
      rw [State.length_peekBits, hat.streamBits, hat.bitPos, State.streamBits]
      omega
    have hparse : t.parse = some .order := by simp [State.parse, hat.status, hat.stage]
    have hdec : decode .order (t.peekBits window) = .reject .endOfStream := by rw [hnone]; rfl
    exact ⟨_, step_of_decode_reject hturn hparse hdec, rfl, rfl⟩

end Sys2Proof.Machine
end

section
/-! SUPPORT. Two decodes of the same stream: the relation between two machines that stand at the same place of it, whatever
else they hold, and the code words, which keep it (R56, R122). -/

namespace Sys2Proof.Machine

/-! ### The relation -/

/-- The registers a decode goes by are the same in both machines, and so is the stream. -/
structure SameRegs (s t : State) : Prop where
  status : t.status = s.status
  err : t.err = s.err
  inLen : t.inLen = s.inLen
  width1 : t.width1 = s.width1
  width2 : t.width2 = s.width2
  order : t.order = s.order
  mode : t.mode = s.mode
  byteIndex : t.byteIndex = s.byteIndex
  bitIndex : t.bitIndex = s.bitIndex
  stage : t.stage = s.stage
  stream : ∀ a < s.inLen.toNat, t.inByte a = s.inByte a

/-- The packed bytes of one plane are the same in both machines. -/
def SameBytes (slot : Bool) (s t : State) : Prop :=
  ∀ b < packedBytes s.w, t.packedByte slot b = s.packedByte slot b

/-- Two machines at the same place of a decode of the same stream: what the decode has written so far and has still to
read is the same in both, by stage (R23, R122). -/
structure SameDecode (s t : State) : Prop extends SameRegs s t where
  subPass : s.stage.inBody → t.m = s.m ∧ t.cnt = s.cnt
  units : s.stage.inBody → ∀ i < s.cnt.toNat, t.rawUnit s.slot i = s.rawUnit s.slot i
  first_plane : (s.stage = .mode ∨ (∃ p, s.stage = .planeB p) ∨ s.stage = .merge ∨ s.stage = .output) →
    SameBytes s.order s t
  second_plane : (s.stage = .merge ∨ s.stage = .output) → SameBytes (!s.order) s t
  output : s.stage = .finish ∨ s.status = .done → ∀ a < outBytes s.w, t.outByte a = s.outByte a

theorem SameRegs.w {s t : State} (h : SameRegs s t) : t.w = s.w := by
  rw [State.w_eq, State.w_eq, h.width1]

/-- Where no plane has been opened and nothing put out, the registers and the stream are all there is. -/
theorem SameRegs.sameDecode {s t : State} (h : SameRegs s t)
    (hstage : s.stage = .idle ∨ (∃ f, s.stage = .header f) ∨ s.stage = .planeA .start) (hstatus : s.status ≠ .done) :
    SameDecode s t := by
  constructor
  case toSameRegs => exact h
  all_goals rcases hstage with hs | ⟨f, hs⟩ | hs <;> simp [hs, hstatus, Stage.inBody]

/-- What the host has done is no part of the relation. -/
theorem SameDecode.sameButHost {s t u v : State} (h : SameDecode s t) (hu : SameButHost s u) (hv : SameButHost t v) :
    SameDecode u v := by
  rw [hu, hv]; exact { h with }

theorem SameDecode.pop {s t : State} (h : SameDecode s t) : SameDecode s.pop t.pop := { h with }

/-! ### Reading the stream -/

/-- The next bit is the same in both. -/
theorem SameRegs.readBit {s t : State} (h : SameRegs s t) :
    (s.readBit = none ∧ t.readBit = none)
    ∨ ∃ b u v, s.readBit = some (b, u) ∧ t.readBit = some (b, v) ∧ SameRegs u v := by
  by_cases hlt : s.byteIndex.toNat < s.inLen.toNat
  · have hlt' : t.byteIndex.toNat < t.inLen.toNat := by rw [h.byteIndex, h.inLen]; exact hlt
    have hbyte : t.inByte t.byteIndex.toNat = s.inByte s.byteIndex.toNat := by rw [h.byteIndex]; exact h.stream _ hlt
    by_cases h0 : s.bitIndex = 0
    · have hread := State.readBit_of_bitIndex_zero hlt' (h.bitIndex.trans h0)
      rw [hbyte, h.byteIndex] at hread
      exact .inr ⟨_, _, _, State.readBit_of_bitIndex_zero hlt h0, hread, { h with bitIndex := rfl, byteIndex := rfl }⟩
    · have hread := State.readBit_of_bitIndex_ne_zero hlt' (by rw [h.bitIndex]; exact h0)
      rw [hbyte, h.bitIndex] at hread
      exact .inr ⟨_, _, _, State.readBit_of_bitIndex_ne_zero hlt h0, hread, { h with bitIndex := rfl }⟩
  · refine .inl ⟨s.readBit_eq_none_iff.mpr (Nat.not_lt.mp hlt), t.readBit_eq_none_iff.mpr ?_⟩
    rw [h.byteIndex, h.inLen]
    exact Nat.not_lt.mp hlt

theorem SameRegs.peekBits {s t : State} (h : SameRegs s t) (n : Nat) : t.peekBits n = s.peekBits n := by
  induction n generalizing s t with
  | zero => rfl
  | succ n ih =>
    rcases h.readBit with ⟨hs, ht⟩ | ⟨b, u, v, hs, ht, huv⟩
    · simp only [State.peekBits, hs, ht]
    · simp only [State.peekBits, hs, ht, ih huv]

theorem SameRegs.consume {s t : State} (h : SameRegs s t) (n : Nat) : SameRegs (s.consume n) (t.consume n) := by
  induction n generalizing s t with
  | zero => exact h
  | succ n ih =>
    rcases h.readBit with ⟨hs, ht⟩ | ⟨b, u, v, hs, ht, huv⟩
    · simpa only [State.consume, hs, ht] using h
    · simpa only [State.consume, hs, ht] using ih huv

/-- The cursors move on together. -/
theorem SameDecode.consume {s t : State} (h : SameDecode s t) (n : Nat) : SameDecode (s.consume n) (t.consume n) := by
  have hregs := h.toSameRegs.consume n
  have hs := s.consume_frame n
  have ht := t.consume_frame n
  generalize s.consume n = u at hregs hs ⊢
  generalize t.consume n = v at hregs ht ⊢
  rw [hs, ht] at hregs ⊢
  exact { h with toSameRegs := hregs }

theorem SameDecode.bodyParse {s t : State} (h : SameDecode s t) (hbody : s.stage.inBody) :
    t.bodyParse = s.bodyParse := by
  obtain ⟨hm, hcnt⟩ := h.subPass hbody
  rw [State.bodyParse, State.bodyParse, hm, hcnt, h.w]

/-- The same code word is read next in both (R56). -/
theorem SameDecode.parse {s t : State} (h : SameDecode s t) : t.parse = s.parse := by
  unfold State.parse
  rw [h.status, h.stage]
  split
  · split
    case h_5 hs => exact h.bodyParse (.inl hs)
    case h_8 hs => exact h.bodyParse (.inr hs)
    all_goals rfl
  · rfl

/-! ### Code words -/

theorem SameRegs.abort {s t : State} (h : SameRegs s t) (e : ErrCode) :
    SameDecode (State.abort e s) (State.abort e t) :=
  SameRegs.sameDecode { h with status := rfl, err := rfl, stage := rfl } (.inl rfl) (by simp)

/-- Literal groups and run codes are read in a plane's body (R77). -/
theorem State.inBody_of_parse {s : State} {p : ParseState} (h : s.parse = some p) (hp : p = .literal ∨ p = .run) :
    s.stage.inBody := by
  have hbody : s.stage.inBody ∧ s.cnt.toNat < lenUnits s.w := by
    have hcases := State.parse_cases h
    rcases hp with rfl | rfl <;> simpa using hcases
  exact hbody.1

/-- What a code word of a plane's body does: the units from the count up to `n` become `x`, the sub-pass goes on as `m`,
and nothing but the registers of the sub-pass changes (R78, R79, R81). -/
structure Appends (s t : State) (x : RawUnit) (n : Nat) (m : Bool) : Prop where
  frame : t = { s with g := t.g, k := t.k, n := t.n, cnt := t.cnt, m := t.m, raw0 := t.raw0, raw1 := t.raw1 }
  cnt : t.cnt.toNat = n
  subPass : t.m = m
  units : ∀ j, t.rawUnit s.slot j = if s.cnt.toNat ≤ j ∧ j < n then x else s.rawUnit s.slot j

/-- What the code word `i` appends is fixed by the count, the width and the kind of the sub-pass. -/
def AppendsBy (i : Instr) (cnt : BitVec 13) (w : Nat) (m : Bool) : Prop :=
  ∃ x n m', ∀ s : State, s.cnt = cnt → s.w = w → s.m = m → s.parse = some i.place →
    ∃ t, exec i s = .next t ∧ Appends s t x n m'

theorem AppendsBy.litEnd (cnt : BitVec 13) (w : Nat) (m : Bool) : AppendsBy .litEnd cnt w m := by
  refine ⟨0, cnt.toNat, false, fun s hcnt _ _ hparse => ⟨_, literalEndSwitchesToRun s hparse, rfl, ?_, rfl, fun j => ?_⟩⟩
  · rw [← hcnt]
  · rw [if_neg (by rw [hcnt]; omega)]
    rfl

theorem AppendsBy.literal {i : Instr} {v : BitVec 2} (hi : literalValue i = some v) (cnt : BitVec 13) (w : Nat)
    (m : Bool) : AppendsBy i cnt w m := by
  have hplace : i.place = .literal := by
    cases i with
    | lit1 | lit2 | lit3 => rfl
    | _ => cases hi
  refine ⟨v, cnt.toNat + 1, if cnt.toNat + 1 = 32 * (w * w) then !m else m, fun s hcnt hw hm hparse => ?_⟩
  obtain ⟨t, ht, hframe, -, hcount, hpass, hunits, -⟩ := literalUnitsAppend s i v (hplace ▸ hparse) hi
  refine ⟨t, ht, by rw [hframe], by rw [hcount, hcnt], by rw [hpass, hcnt, hw, hm], fun j => ?_⟩
  have hj : j = s.cnt.toNat ↔ s.cnt.toNat ≤ j ∧ j < cnt.toNat + 1 := by rw [hcnt]; omega
  simp only [hunits, hj]

theorem AppendsBy.run {i : Instr} {k n : Nat} (hi : runShape i = some (k, n)) (cnt : BitVec 13) (w : Nat) (m : Bool) :
    AppendsBy i cnt w m := by
  obtain ⟨_, x, rfl, -⟩ := runShape_eq_some_iff.mp hi
  refine ⟨0, cnt.toNat + min n (32 * (w * w) - cnt.toNat), true, fun s hcnt hw _ hparse => ?_⟩
  rw [place_runCode] at hparse
  obtain ⟨t, ht, hframe, -, -, hpass, hcount, hunits, -⟩ := runCodesAppendClampedZeros s _ k n hparse hi
  rw [hcnt, hw] at hcount
  exact ⟨t, ht, by rw [hframe], hcount, hpass, fun j => by rw [hunits, hcount]⟩

section
variable {s t u : State} (h : SameDecode s t)
include h

/-- In a plane's body both machines append the same units. -/
theorem SameDecode.appends {v : State} {x : RawUnit} {n : Nat} {m : Bool} (hbody : s.stage.inBody)
    (hslot : t.slot = s.slot) (hu : Appends s u x n m) (hv : Appends t v x n m) : SameDecode u v := by
  obtain ⟨-, hcnt⟩ := h.subPass hbody
  have hcount : v.cnt = u.cnt := BitVec.eq_of_toNat_eq (hv.cnt.trans hu.cnt.symm)
  have hunits (j : Nat) (hj : j < u.cnt.toNat) : v.rawUnit s.slot j = u.rawUnit s.slot j := by
    have hright := hv.units j
    rw [hslot, hcnt] at hright
    rw [hright, hu.units]
    split
    · rfl
    · rw [hu.cnt] at hj
      exact h.units hbody j (by omega)
  have hpass : v.m = u.m := hv.subPass.trans hu.subPass.symm
  rw [hu.frame, hv.frame] at hunits ⊢
  exact { h with subPass := fun _ => ⟨hpass, hcount⟩, units := fun _ => hunits }

theorem SameDecode.exec_body {i : Instr} (hslot : s.stage.inBody → t.slot = s.slot)
    (hplace : i.place = .literal ∨ i.place = .run) (hi : AppendsBy i s.cnt s.w s.m) (hparse : s.parse = some i.place)
    (hexec : exec i s = .next u) : ∃ v, exec i t = .next v ∧ SameDecode u v := by
  have hbody : s.stage.inBody := State.inBody_of_parse hparse hplace
  obtain ⟨hm, hcnt⟩ := h.subPass hbody
  obtain ⟨x, n, m', hall⟩ := hi
  obtain ⟨u', hu, happ⟩ := hall s rfl rfl rfl hparse
  obtain ⟨v, hv, happ'⟩ := hall t hcnt h.w hm (h.parse.trans hparse)
  rw [hu] at hexec
  cases hexec
  exact ⟨v, hv, h.appends hbody (hslot hbody) happ happ'⟩

theorem SameDecode.openPlane (hb : s.status = .busy) (hs : s.stage = .planeA .start ∨ s.stage = .planeB .start)
    (m : Bool) : SameDecode (s.openPlane m) (t.openPlane m) where
  toSameRegs := { h with stage := congrArg Stage.body h.stage }
  subPass _ := ⟨rfl, rfl⟩
  units _ i hi := absurd hi (Nat.not_lt_zero i)
  first_plane hstage := by
    rcases hs with hs | hs
    · simp [hs, Stage.body] at hstage
    · exact h.first_plane (.inr (.inl ⟨_, hs⟩))
  second_plane hstage := by rcases hs with hs | hs <;> simp [hs, Stage.body] at hstage
  output hend := by rcases hs with hs | hs <;> simp [hs, hb, Stage.body] at hend

theorem SameDecode.setMode (hb : s.status = .busy) (hs : s.stage = .mode) (v : BitVec 2) :
    SameDecode (s.setMode v) (t.setMode v) where
  toSameRegs := { h with mode := rfl, stage := rfl }
  subPass hbody := by simp [Stage.inBody] at hbody
  units hbody := by simp [Stage.inBody] at hbody
  first_plane _ := h.first_plane (.inl hs)
  second_plane hstage := by simp at hstage
  output hend := by simp [hb] at hend

/-- A second width agrees in both machines or differs in both. -/
theorem SameDecode.exec_hdrWidth2 (hb : s.status = .busy) {v : BitVec 4} (hparse : s.parse = some .width2)
    (hexec : exec (.hdrWidth2 v) s = .next u) : ∃ w, exec (.hdrWidth2 v) t = .next w ∧ SameDecode u w := by
  have hparse' := h.parse.trans hparse
  by_cases hv : v = s.width1
  · subst hv
    have hright := exec_hdrWidth2_of_agree hparse'
    rw [exec_hdrWidth2_of_agree hparse] at hexec
    rw [h.width1] at hright
    cases hexec
    refine ⟨_, hright, SameRegs.sameDecode ?_ (.inr (.inl ⟨_, rfl⟩)) (by simp [hb])⟩
    exact { h with width1 := rfl, width2 := rfl, stage := rfl }
  · rw [exec_hdrWidth2_of_differ hparse hv] at hexec
    cases hexec
    have hregs : SameRegs { s with width2 := v } { t with width2 := v } := { h with width2 := rfl }
    exact ⟨_, exec_hdrWidth2_of_differ hparse' (by rw [h.width1]; exact hv), hregs.abort _⟩

/-- A BUSY machine's code word does the same in both. -/
theorem SameDecode.exec (hb : s.status = .busy) {i : Instr} (hslot : s.stage.inBody → t.slot = s.slot)
    (hexec : exec i s = .next u) : ∃ v, Machine.exec i t = .next v ∧ SameDecode u v := by
  have hbt : t.status = .busy := h.status.trans hb
  rcases exec_next_place hexec with hparse | ⟨x, rfl⟩
  · have hparse' := h.parse.trans hparse
    cases i with
    | hdrWidth1 w =>
      obtain ⟨-, rfl⟩ := State.next_of_inPlace hexec
      exact ⟨_, exec_hdrWidth1 hparse',
        SameRegs.sameDecode { h with width1 := rfl, stage := rfl } (.inr (.inl ⟨_, rfl⟩)) (by simp [hb])⟩
    | hdrWidth2 v => exact h.exec_hdrWidth2 hb hparse hexec
    | hdrOrder o =>
      obtain ⟨-, rfl⟩ := State.next_of_inPlace hexec
      exact ⟨_, exec_hdrOrder hparse',
        SameRegs.sameDecode { h with order := rfl, stage := rfl } (.inr (.inr rfl)) (by simp [hb])⟩
    | pmodeRun | pmodeLit =>
      obtain ⟨-, rfl⟩ := State.next_of_inPlace hexec
      have hs : s.stage = .planeA .start ∨ s.stage = .planeB .start := by
        simpa [Instr.place] using State.parse_cases hparse
      exact ⟨_, State.inPlace_of_parse hparse' _, h.openPlane hb hs _⟩
    | litEnd => exact h.exec_body hslot (.inl rfl) (.litEnd ..) hparse hexec
    | lit1 | lit2 | lit3 => exact h.exec_body hslot (.inl rfl) (.literal rfl ..) hparse hexec
    | runK0 x | runK1 x | runK2 x | runK3 x | runK4 x | runK5 x | runK6 x | runK7 x | runK8 x | runK9 x | runK10 x
    | runK11 x | runK12 x | runK13 x | runK14 x | runK15 x =>
      exact h.exec_body hslot (.inr rfl) (.run rfl ..) hparse hexec
    | runInvalid =>
      obtain ⟨-, rfl⟩ := State.next_of_inPlace hexec
      exact ⟨_, State.inPlace_of_parse hparse' _, SameRegs.abort (s := { s with k := 16 }) { h with } _⟩
    | mode0 | mode1 | mode2 =>
      obtain ⟨-, rfl⟩ := State.next_of_inPlace hexec
      have hs : s.stage = .mode := by simpa [Instr.place] using State.parse_cases hparse
      exact ⟨_, State.inPlace_of_parse hparse' _, h.setMode hb hs _⟩
    | cmdStart x => exact absurd rfl (State.parse_ne_ctrlWrite hparse)
  · rw [exec_cmdStart_of_busy hb] at hexec
    cases hexec
    exact ⟨t, exec_cmdStart_of_busy hbt x, h⟩

end

end Sys2Proof.Machine
end

section
/-! SUPPORT. The decode of a stream depends on the stream alone (O40): the stages keep the relation between the two
machines, so every step does, and the host beside a decode makes no difference to it, R112, R122. -/

namespace Sys2Proof.Machine

/-! ### Planes and OUT -/

/-- A byte of a plane has its row and its column. -/
theorem exists_row_and_column {w b : Nat} (hb : b < packedBytes w) :
    ∃ y x, y < w ∧ x < 8 * w ∧ b = y * (8 * w) + x := by
  rw [packedBytes_eq, Nat.mul_left_comm] at hb
  have hpos : 0 < 8 * w := Nat.pos_of_lt_mul_left hb
  exact ⟨b / (8 * w), b % (8 * w), Nat.div_lt_of_lt_mul (Nat.mul_comm w _ ▸ hb), Nat.mod_lt _ hpos,
    (Nat.div_add_mod' b _).symm⟩

/-- The units that a byte packs are units of the plane (R89). -/
theorem unit_index_lt {w y x i : Nat} (hy : y < w) (hx : x < 8 * w) (hi : i < 4) :
    (4 * y + i) * (8 * w) + x < lenUnits w :=
  calc (4 * y + i) * (8 * w) + x < (4 * y + i) * (8 * w) + 8 * w := Nat.add_lt_add_left hx _
    _ = (4 * y + i + 1) * (8 * w) := (Nat.succ_mul ..).symm
    _ ≤ 4 * w * (8 * w) := Nat.mul_le_mul_right _ (by omega)
    _ = lenUnits w := by rw [lenUnits_eq, Nat.mul_mul_mul_comm]

section
variable {s t : State} {slot : Bool} (hw : t.w = s.w)
include hw

/-- Planes of the same units are packed into the same bytes (R87, R88). -/
theorem SameBytes.packPlane (h : ∀ i < lenUnits s.w, t.rawUnit slot i = s.rawUnit slot i) :
    SameBytes slot (s.packPlane slot) (t.packPlane slot) := by
  intro b hb
  have hwidth : (s.packPlane slot).w = s.w := by rw [State.packPlane_frame]; rfl
  rw [hwidth] at hb
  obtain ⟨y, x, hy, hx, rfl⟩ := exists_row_and_column hb
  have hright := t.packedByte_packPlane slot (hw ▸ hy) (hw ▸ hx)
  rw [hw] at hright
  have hunit (i : Nat) (hi : i < 4) := h _ (unit_index_lt hy hx hi)
  rw [hright, State.packedByte_packPlane s slot hy hx, State.packedColumn, State.packedColumn, hw,
    hunit 0 (by decide), hunit 1 (by decide), hunit 2 (by decide), hunit 3 (by decide)]

/-- Planes of the same bytes are decoded to the same bytes (R92). -/
theorem SameBytes.grayPlane (h : SameBytes slot s t) : SameBytes slot (s.grayPlane slot) (t.grayPlane slot) := by
  intro b hb
  rw [State.w_grayPlane] at hb
  obtain ⟨y, x, hy, hx, rfl⟩ := exists_row_and_column hb
  have hright := t.packedByte_grayPlane slot (hw ▸ hx) (hw ▸ hy)
  rw [hw] at hright
  rw [hright, State.packedByte_grayPlane s slot hx hy]
  refine State.grayDecoded_congr hw fun i hi => h _ ?_
  rw [packedBytes_eq]
  exact row_and_column_lt hx (Nat.lt_of_le_of_lt hi hy)

end

/-- Packing one plane leaves the other as it was. -/
theorem State.packedByte_packPlane_other (s : State) (slot : Bool) (b : Nat) :
    (s.packPlane slot).packedByte (!slot) b = s.packedByte (!slot) b := by
  have hera : (s.packPlane slot).era = s.era := by rw [State.packPlane_frame]
  rw [State.packedByte, State.packedByte, hera, State.packPlane, State.packedCells_writePackedFrom_other]

section
variable {s t : State} (h : SameRegs s t) (hfirst : SameBytes s.order s t) (hsecond : SameBytes (!s.order) s t)
include h hfirst

theorem SameRegs.merged_first : SameBytes s.order s.merged t.merged := by
  intro b hb
  have hwidth : s.merged.w = s.w := by rw [(OnlyPacks.merged s).frame]; rfl
  have hright := t.packedByte_merged_order b
  rw [h.order] at hright
  rw [hright, s.packedByte_merged_order]
  exact hfirst.grayPlane h.w b (by rw [State.w_grayPlane, ← hwidth]; exact hb)

include hsecond

/-- The other plane merges to the same bytes in every mode (R98 to R100). -/
theorem SameRegs.merged_second (hmode : s.mode ≠ 3) : SameBytes (!s.order) s.merged t.merged := by
  intro b hb
  have hwidth : s.merged.w = s.w := by rw [(OnlyPacks.merged s).frame]; rfl
  rw [hwidth] at hb
  have hb' : b < packedBytes t.w := by rw [h.w]; exact hb
  have hgray {slot : Bool} (hs : SameBytes slot s t) := hs.grayPlane h.w b (by rw [State.w_grayPlane]; exact hb)
  rcases mode_cases hmode with hm | hm | hm
  · rw [State.merged_of_mode0 hm, State.merged_of_mode0 (h.mode.trans hm), State.packedByte_mergeMode0,
      State.packedByte_mergeMode0, hgray hsecond]
  · have hright := t.packedByte_mergeMode1_other b
    rw [h.order, if_pos hb', hgray hfirst, hsecond b hb] at hright
    rw [State.merged_of_mode1 hm, State.merged_of_mode1 (h.mode.trans hm), hright, s.packedByte_mergeMode1_other,
      if_pos hb]
  · have hright := t.packedByte_mergeMode2_other b
    rw [h.order, if_pos hb', hgray hfirst, hgray hsecond] at hright
    rw [State.merged_of_mode2 hm, State.merged_of_mode2 (h.mode.trans hm), hright, s.packedByte_mergeMode2_other,
      if_pos hb]

/-- Merged planes of the same bytes are put out as the same bytes (R104, R106). -/
theorem SameRegs.output_bytes {a : Nat} (ha : a < outBytes s.w) :
    t.interleave.transpose.outByte a = s.interleave.transpose.outByte a := by
  have hsame (p : Bool) : SameBytes p s t := by
    by_cases hp : p = s.order
    · exact hp ▸ hfirst
    · exact Bool.eq_not.mpr hp ▸ hsecond
  have hparity := Nat.mod_two_eq_zero_or_one a
  obtain ⟨k, r, p, hr, rfl⟩ : ∃ k r, ∃ p : Bool, r < 8 ∧ a = 16 * k + 2 * r + p.toNat := by
    refine ⟨a / 16, a % 16 / 2, a % 2 == 1, by omega, ?_⟩
    rcases hparity with hp | hp <;> simp [hp] <;> omega
  have hk : k < s.w * s.w := by unfold outBytes at ha; omega
  have hright := t.outByte_output p (h.w ▸ hk) hr
  rw [h.w] at hright
  have hcolumn : 8 * (k / s.w) + r < 8 * s.w := by
    have := Nat.div_lt_of_lt_mul hk
    omega
  have hrow : k % s.w < s.w := Nat.mod_lt _ (Nat.pos_of_lt_mul_left hk)
  rw [hright, s.outByte_output p hk hr]
  refine hsame p _ ?_
  rw [packedBytes_eq, Nat.add_assoc]
  exact row_and_column_lt hcolumn hrow

end

/-! ### Stages -/

/-- After a step that packs or merges, the planes are all the stages to come read. -/
theorem SameRegs.packed {s t u v : State} (h : SameRegs s t) (hb : s.status = .busy) (hu : SameButPacked s u)
    (hv : SameButPacked t v) {g : Stage} (hg : g = .mode ∨ g = .merge ∨ g = .output)
    (hfirst : SameBytes s.order u v) (hsecond : g ≠ .mode → SameBytes (!s.order) u v) :
    SameDecode { u with stage := g } { v with stage := g } := by
  have hbody : ¬ g.inBody := by rcases hg with rfl | rfl | rfl <;> simp [Stage.inBody]
  have hfinish : g ≠ .finish := by rcases hg with rfl | rfl | rfl <;> simp
  obtain ⟨_, _, _, rfl⟩ := hu.exists_fields
  obtain ⟨_, _, _, rfl⟩ := hv.exists_fields
  exact {
    toSameRegs := { h with stage := rfl }
    subPass := fun hin => absurd hin hbody
    units := fun hin => absurd hin hbody
    first_plane := fun _ => hfirst
    second_plane := fun hs => hsecond (by rintro rfl; simp at hs)
    output := fun hend => by simp [hb, hfinish] at hend }

section
variable {s t u : State} (h : SameDecode s t)
include h

/-- In both machines a plane goes to the slot that HDR.ORDER says (R96). -/
theorem SameDecode.slot (hs : PlaneInv s) (ht : PlaneInv t) (hbody : s.stage.inBody) : t.slot = s.slot := by
  rcases hbody with hstage | hstage
  · rw [hs.slot_first _ hstage, ht.slot_first _ (h.stage.trans hstage), h.order]
  · rw [hs.slot_second _ hstage, ht.slot_second _ (h.stage.trans hstage), h.order]

/-- A full plane is packed to the same bytes. -/
theorem SameDecode.packPlane_slot (hbody : s.stage.inBody) (hfull : lenUnits s.w ≤ s.cnt.toNat) :
    SameBytes s.slot (s.packPlane s.slot) (t.packPlane s.slot) :=
  SameBytes.packPlane h.w fun i hi => h.units hbody i (Nat.lt_of_lt_of_le hi hfull)

theorem SameDecode.packFirst (hb : s.status = .busy) (hs : PlaneInv s) (hstage : s.stage = .planeA .body)
    (hfull : lenUnits s.w ≤ s.cnt.toNat) :
    SameDecode { s.packPlane s.slot with stage := .mode } { t.packPlane s.slot with stage := .mode } := by
  have hbytes := h.packPlane_slot (.inl hstage) hfull
  rw [hs.slot_first _ hstage] at hbytes ⊢
  exact h.packed hb (OnlyPacks.packPlane ..).frame (OnlyPacks.packPlane ..).frame (.inl rfl) hbytes (absurd rfl)

theorem SameDecode.packSecond (hb : s.status = .busy) (hs : PlaneInv s) (hstage : s.stage = .planeB .body)
    (hfull : lenUnits s.w ≤ s.cnt.toNat) :
    SameDecode { s.packPlane s.slot with stage := .merge } { t.packPlane s.slot with stage := .merge } := by
  have hbytes := h.packPlane_slot (.inr hstage) hfull
  rw [hs.slot_second _ hstage] at hbytes ⊢
  refine h.packed hb (OnlyPacks.packPlane ..).frame (OnlyPacks.packPlane ..).frame (.inr (.inl rfl))
    (fun b hlt => ?_) (fun _ => hbytes)
  have hleft := s.packedByte_packPlane_other (!s.order) b
  have hright := t.packedByte_packPlane_other (!s.order) b
  rw [Bool.not_not] at hleft hright
  have hwidth : (s.packPlane (!s.order)).w = s.w := by rw [State.packPlane_frame]; rfl
  rw [hleft, hright]
  exact h.first_plane (.inr (.inl ⟨_, hstage⟩)) b (hwidth ▸ hlt)

theorem SameDecode.merged (hb : s.status = .busy) (hmode : s.mode ≠ 3) (hstage : s.stage = .merge) :
    SameDecode { s.merged with stage := .output } { t.merged with stage := .output } := by
  have hfirst := h.first_plane (.inr (.inr (.inl hstage)))
  exact h.packed hb (OnlyPacks.merged s).frame (OnlyPacks.merged t).frame (.inr (.inr rfl))
    (h.merged_first hfirst) (fun _ => h.merged_second hfirst (h.second_plane (.inl hstage)) hmode)

theorem SameDecode.putOut (hstage : s.stage = .output) :
    SameDecode { s.interleave.transpose with stage := .finish } { t.interleave.transpose with stage := .finish } := by
  have hbytes (a : Nat) (ha : a < outBytes s.w) :=
    h.output_bytes (h.first_plane (.inr (.inr (.inr hstage)))) (h.second_plane (.inr hstage)) ha
  have hs := (OnlyOut.output s).frame
  have ht := (OnlyOut.output t).frame
  generalize s.interleave.transpose = u at hbytes hs ⊢
  generalize t.interleave.transpose = v at hbytes ht ⊢
  rw [hs, ht] at hbytes ⊢
  exact {
    toSameRegs := { h with stage := rfl }
    subPass := fun hin => by simp [Stage.inBody] at hin
    units := fun hin => by simp [Stage.inBody] at hin
    first_plane := fun hs => by simp at hs
    second_plane := fun hs => by simp at hs
    output := fun _ => hbytes }

theorem SameDecode.finishDecode (hstage : s.stage = .finish) : SameDecode s.finishDecode t.finishDecode where
  toSameRegs := { h with status := rfl, err := rfl, stage := rfl }
  subPass hin := by simp [Stage.inBody] at hin
  units hin := by simp [Stage.inBody] at hin
  first_plane hs := by simp at hs
  second_plane hs := by simp at hs
  output _ := h.output (.inl hstage)

/-- A stage's work does the same in both. -/
theorem SameDecode.engineWork (hb : s.status = .busy) (hs : PlaneInv s) (ht : PlaneInv t) (hmode : s.mode ≠ 3)
    (hparse : s.parse = none) (hwork : s.engineWork = .next u) : ∃ v, t.engineWork = .next v ∧ SameDecode u v := by
  have hfull (hbody : s.stage.inBody) : lenUnits s.w ≤ s.cnt.toNat := by
    rw [State.parse_of_inBody hb hbody, State.bodyParse] at hparse
    refine Nat.not_lt.mp fun hlt => ?_
    rw [if_pos hlt] at hparse
    cases hparse
  have hmerge (hstage : s.stage = .merge) : ∃ v, t.engineWork = .next v ∧ SameDecode u v := by
    have hleft : s.engineWork = .next { s.merged with stage := .output } := by
      rw [State.engineWork, hstage]; exact State.merge_eq_merged hmode
    rw [hleft] at hwork
    cases hwork
    refine ⟨_, ?_, h.merged hb hmode hstage⟩
    rw [State.engineWork, h.stage, hstage]
    exact State.merge_eq_merged (by rw [h.mode]; exact hmode)
  rcases State.engineWork_cases hwork with ⟨hstage, rfl⟩ | ⟨hstage, rfl⟩ | ⟨hstage, _⟩ | ⟨hstage, _⟩ | ⟨hstage, _⟩
    | ⟨hstage, rfl⟩ | ⟨hstage, rfl⟩
  · refine ⟨_, ?_, h.packFirst hb hs hstage (hfull (.inl hstage))⟩
    rw [State.engineWork, h.stage, hstage, ← h.slot hs ht (.inl hstage)]
  · refine ⟨_, ?_, h.packSecond hb hs hstage (hfull (.inr hstage))⟩
    rw [State.engineWork, h.stage, hstage, ← h.slot hs ht (.inr hstage)]
  · exact hmerge hstage
  · exact hmerge hstage
  · exact hmerge hstage
  · exact ⟨_, by rw [State.engineWork, h.stage, hstage], h.putOut hstage⟩
  · exact ⟨_, by rw [State.engineWork, h.stage, hstage], h.finishDecode hstage⟩

end

/-! ### Steps -/

/-- While BUSY an access that is not refused is one of the interface, and changes only the host's own record (R49). -/
theorem sameButHost_of_access {s t : State} {a : Access} {rest : List Event} (hb : s.status = .busy)
    (hpending : s.pending = .access a :: rest) (hstep : step s = .next t) : a.wf = true ∧ SameButHost s t := by
  have hwf : a.wf = true := Decidable.byContradiction fun hwf => by
    rw [step_of_not_wf hpending hwf] at hstep
    cases hstep
  obtain ⟨u, hu, -, hsame⟩ := busyAccessesChangeNothing s a rest hb hpending hwf
  rw [hu] at hstep
  cases hstep
  exact ⟨hwf, hsame⟩

/-- Two machines at the same place of a decode of the same stream, each of which meets the engine's part of the
invariant. -/
structure Lockstep (s t : State) : Prop where
  same : SameDecode s t
  left : EngineInv s
  right : EngineInv t

theorem Lockstep.start {s t : State} (hlen : t.inLen = s.inLen) (hin : ∀ a < s.inLen.toNat, t.inByte a = s.inByte a) :
    Lockstep s.start t.start where
  same := SameRegs.sameDecode ⟨rfl, rfl, hlen, rfl, rfl, rfl, rfl, rfl, rfl, rfl, hin⟩ (.inr (.inl ⟨_, rfl⟩)) (by simp)
  left := .start s
  right := .start t

section
variable {s t u : State} (h : Lockstep s t)
include h

theorem Lockstep.sameButHost {v : State} (hu : SameButHost s u) (hv : SameButHost t v) : Lockstep u v :=
  ⟨h.same.sameButHost hu hv, h.left.sameButHost hu, h.right.sameButHost hv⟩

/-- Steps that keep the relation keep the invariants beside it. -/
theorem Lockstep.of_steps {v : State} (hsame : SameDecode u v) (hu : step s = .next u) (hv : step t = .next v) :
    Lockstep u v :=
  ⟨hsame, h.left.step (stepBy_of_step hu), h.right.step (stepBy_of_step hv)⟩

variable (hb : s.status = .busy)
include hb

theorem Lockstep.slot_consume (n : Nat) (hbody : (s.pop.consume n).stage.inBody) :
    (t.pop.consume n).slot = (s.pop.consume n).slot := by
  have hbt : t.pop.status = .busy := h.same.status.trans hb
  have hleft := h.left.pop.consume (s := s.pop) hb n
  have hright := h.right.pop.consume hbt n
  exact (h.same.pop.consume n).slot hleft.planes hright.planes hbody

/-- The engine's turn does the same in both. -/
theorem Lockstep.engineTurn (hs : s.engineNext = true) (ht : t.engineNext = true) (hstep : step s = .next u) :
    ∃ v, step t = .next v ∧ Lockstep u v := by
  have hbt : t.status = .busy := h.same.status.trans hb
  suffices hsame : ∃ v, step t = .next v ∧ SameDecode u v by
    obtain ⟨v, hv, huv⟩ := hsame
    exact ⟨v, hv, h.of_steps huv hstep hv⟩
  have hparse' := h.same.parse
  cases hparse : s.parse with
  | none =>
    rw [hparse] at hparse'
    rw [step_of_work hs hb hparse] at hstep
    rw [step_of_work ht hbt hparse']
    exact h.same.pop.engineWork hb h.left.pop.planes h.right.pop.planes h.left.regs.mode_legal hparse hstep
  | some p =>
    rw [hparse] at hparse'
    have hpeek := h.same.peekBits window
    cases hdec : decode p (s.peekBits window) with
    | code i rest =>
      rw [stepRunsTheDecodedCodeWord s p i rest hs hparse hdec] at hstep
      rw [stepRunsTheDecodedCodeWord t p i rest ht hparse' (by rw [hpeek]; exact hdec)]
      have hbusy : (s.pop.consume i.codeLength).status = .busy := by rw [State.consume_frame]; exact hb
      exact (h.same.pop.consume _).exec hbusy (h.slot_consume hb _) hstep
    | reject why =>
      rw [step_of_decode_reject hs hparse hdec] at hstep
      cases hstep
      exact ⟨_, step_of_decode_reject ht hparse' (by rw [hpeek]; exact hdec),
        (h.same.pop.consume window).toSameRegs.abort _⟩

/-- With the same events to come, every step does the same in both (log 10). -/
theorem Lockstep.step (hpending : t.pending = s.pending) (hstep : Machine.step s = .next u) :
    ∃ v, Machine.step t = .next v ∧ Lockstep u v := by
  have hbt : t.status = .busy := h.same.status.trans hb
  match hevents : s.pending with
  | [] | .engine :: _ =>
    have hs : s.engineNext = true := by simp [State.engineNext, hevents]
    have ht : t.engineNext = true := by simp [State.engineNext, hpending, hevents]
    exact h.engineTurn hb hs ht hstep
  | .access a :: rest =>
    obtain ⟨hwf, hsame⟩ := sameButHost_of_access hb hevents hstep
    obtain ⟨v, hv, -, hsame'⟩ := busyAccessesChangeNothing t a rest hbt (hpending.trans hevents) hwf
    exact ⟨v, hv, h.sameButHost hsame hsame'⟩
  | .reset :: _ =>
    rw [step_of_reset (by simp [hevents])] at hstep
    have hright := step_of_reset (s := t) (by simp [hpending, hevents])
    cases hstep
    have hregs : SameRegs s.pop.resetInput t.pop.resetInput :=
      ⟨rfl, rfl, rfl, rfl, rfl, rfl, rfl, rfl, rfl, rfl, fun a ha => absurd ha (Nat.not_lt_zero a)⟩
    exact ⟨_, hright, hregs.sameDecode (.inl rfl) (by simp), .resetInput _, .resetInput _⟩

end

/-! ### Whole decodes -/

/-- With the same events to come, two decodes of the same stream stay together. -/
theorem Lockstep.whileBusy {n : Nat} {s t u : State} (h : Lockstep s t) (hpending : t.pending = s.pending)
    (hrun : whileBusy n s u) : ∃ v, Machine.whileBusy n t v ∧ Lockstep u v := by
  induction n generalizing s t with
  | zero => cases hrun; exact ⟨t, rfl, h⟩
  | succ n ih =>
    obtain ⟨hb, s', hs, hrun⟩ := hrun
    have hbt : t.status = .busy := h.same.status.trans hb
    obtain ⟨t', ht, h'⟩ := h.step hb hpending hs
    have hrest : t'.pending = s'.pending := by
      rw [(stepBy_of_step ht).pending hbt, (stepBy_of_step hs).pending hb, hpending]
    obtain ⟨v, hv, huv⟩ := ih h' hrest hrun
    exact ⟨v, ⟨hbt, t', ht, hv⟩, huv⟩

/-- A decode that ends in DONE or ERROR does the same as one with no host beside it. -/
theorem Lockstep.withoutHost {n : Nat} {s t u : State} (h : Lockstep s t) (hquiet : t.pending = [])
    (hrun : Machine.whileBusy n s u) (hend : u.status = .done ∨ u.status = .error) :
    ∃ k v, Machine.whileBusy k t v ∧ Lockstep u v := by
  induction n generalizing s t with
  | zero => cases hrun; exact ⟨0, t, rfl, h⟩
  | succ n ih =>
    obtain ⟨hb, s', hs, hrun⟩ := hrun
    have hbt : t.status = .busy := h.same.status.trans hb
    match hevents : s.pending with
    | [] | .engine :: _ =>
      have hsnext : s.engineNext = true := by simp [State.engineNext, hevents]
      have htnext : t.engineNext = true := by simp [State.engineNext, hquiet]
      obtain ⟨t', ht, h'⟩ := h.engineTurn hb hsnext htnext hs
      have hquiet' : t'.pending = [] := by rw [(stepBy_of_step ht).pending hbt, hquiet]; rfl
      obtain ⟨k, v, hv, huv⟩ := ih h' hquiet' hrun
      exact ⟨k + 1, v, ⟨hbt, t', ht, hv⟩, huv⟩
    | .access a :: rest =>
      obtain ⟨-, hsame⟩ := sameButHost_of_access hb hevents hs
      exact ih (h.sameButHost hsame (.refl t)) hquiet hrun
    | .reset :: _ =>
      rw [step_of_reset (by simp [hevents])] at hs
      cases hs
      cases n with
      | zero => cases hrun; simp at hend
      | succ n => obtain ⟨hbusy, -⟩ := hrun; simp at hbusy

/-- A decode has one end. -/
theorem whileBusy_end_unique {n k : Nat} {s u v : State} (hu : whileBusy n s u) (hv : whileBusy k s v)
    (hnu : u.status ≠ .busy) (hnv : v.status ≠ .busy) : u = v := by
  induction n generalizing s k with
  | zero =>
    cases hu
    cases k with
    | zero => exact hv.symm
    | succ k => exact absurd hv.1 hnu
  | succ n ih =>
    obtain ⟨hb, s', hs, hu⟩ := hu
    cases k with
    | zero => cases hv; exact absurd hb hnv
    | succ k =>
      obtain ⟨_, s'', hs', hv⟩ := hv
      rw [hs] at hs'
      cases hs'
      exact ih hu hv

/-- The two machines show the host the same result of a decode (R29, R31 to R33, R47). -/
def SameResult (s t : State) : Prop :=
  s.status = t.status ∧ s.err = t.err ∧ s.outCount = t.outCount ∧ s.hdrWord = t.hdrWord
  ∧ s.curByte = t.curByte ∧ s.curBit = t.curBit ∧ ∀ a, a < s.outCount.toNat → s.outByte a = t.outByte a

theorem SameResult.trans_symm {s t u : State} (h : SameResult s u) (h' : SameResult t u) : SameResult s t := by
  obtain ⟨hstatus, herr, hcount, hhdr, hbyte, hbit, hout⟩ := h
  obtain ⟨hstatus', herr', hcount', hhdr', hbyte', hbit', hout'⟩ := h'
  refine ⟨hstatus.trans hstatus'.symm, herr.trans herr'.symm, hcount.trans hcount'.symm, hhdr.trans hhdr'.symm,
    hbyte.trans hbyte'.symm, hbit.trans hbit'.symm, fun a ha => (hout a ha).trans (hout' a ?_).symm⟩
  rw [hcount', ← hcount]
  exact ha

theorem RegInv.outCount_eq {s : State} (h : RegInv s) :
    s.outCount.toNat = if s.status = .done then outBytes s.w else 0 := by
  split
  · next hd => exact h.outCount_done hd
  · next hd => rw [h.outCount_zero hd]; rfl

/-- Decodes that have ended at the same place show the same result. -/
theorem Lockstep.sameResult {s t : State} (h : Lockstep s t) (hend : s.status ≠ .busy) : SameResult s t := by
  have hsame := h.same
  obtain ⟨hbyte, hbit⟩ := h.left.regs.cursor_shown hend
  obtain ⟨hbyte', hbit'⟩ := h.right.regs.cursor_shown (by rw [hsame.status]; exact hend)
  have hcount : s.outCount = t.outCount := BitVec.eq_of_toNat_eq (by
    rw [h.left.regs.outCount_eq, h.right.regs.outCount_eq, hsame.status, hsame.w])
  refine ⟨hsame.status.symm, hsame.err.symm, hcount, ?_, ?_, ?_, fun a ha => ?_⟩
  · simp only [State.hdrWord, hsame.mode, hsame.order, hsame.width1, hsame.width2]
  · rw [hbyte, hbyte', hsame.byteIndex]
  · rw [hbit, hbit', hsame.bitIndex]
  · rw [h.left.regs.outCount_eq] at ha
    split at ha
    · next hd => exact (hsame.output (.inr hd) a ha).symm
    · exact absurd ha (Nat.not_lt_zero a)

theorem whileBusy_of_decodeReaches {n : Nat} {s u : State} (hs : s.aboutToStart) (h : s.decodeReaches n u) :
    whileBusy n s.pop.start u := by
  obtain ⟨v, hv, hrun⟩ := h
  rw [step_of_aboutToStart hs] at hv
  cases hv
  exact hrun

/-- A decode from START on shows the result of the decode of the same stream that starts at `r` with no host beside
it. -/
theorem sameResult_withoutHost {n : Nat} {s u r : State} (hs : s.aboutToStart) (hrun : s.decodeReaches n u)
    (hend : u.status = .done ∨ u.status = .error) (hquiet : r.pending = []) (hlen : r.inLen = s.inLen)
    (hin : ∀ a < s.inLen.toNat, r.inByte a = s.inByte a) :
    ∃ k w, whileBusy k r.start w ∧ w.status ≠ .busy ∧ SameResult u w := by
  have hnb : u.status ≠ .busy := by rcases hend with h | h <;> simp [h]
  obtain ⟨k, w, hw, hsame⟩ :=
    (Lockstep.start (s := s.pop) (t := r) hlen hin).withoutHost hquiet (whileBusy_of_decodeReaches hs hrun) hend
  exact ⟨k, w, hw, by rw [hsame.same.status]; exact hnb, hsame.sameResult hnb⟩

/-- Settles O40: both decodes show the result of the decode of the same stream that has no host beside it; and with the
same host they go through it step by step. -/
theorem decodeDependsOnTheStreamAlone : Obligations.DecodeDependsOnTheStreamAlone := by
  intro s t hs ht hlen hin
  refine ⟨fun n k u v hu hv hendu hendv => ?_, fun hpending n u v hu hv => ?_⟩
  · obtain ⟨_, w, hw, hnw, hresult⟩ :=
      sameResult_withoutHost (r := { s with pending := [] }) hs hu hendu rfl rfl fun _ _ => rfl
    obtain ⟨_, w', hw', hnw', hresult'⟩ :=
      sameResult_withoutHost (r := { s with pending := [] }) ht hv hendv rfl hlen fun a ha => hin a (hlen ▸ ha)
    obtain rfl := whileBusy_end_unique hw hw' hnw hnw'
    exact hresult.trans_symm hresult'
  · have hstart : Lockstep s.pop.start t.pop.start :=
      .start (s := s.pop) (t := t.pop) hlen.symm fun a ha => (hin a ha).symm
    obtain ⟨w, hw, hsame⟩ := hstart.whileBusy hpending.symm (whileBusy_of_decodeReaches hs hu)
    have hrun : run (n + 1) t = .next w := run_of_decodeReaches ⟨_, step_of_aboutToStart ht, hw⟩
    rw [hrun] at hv
    cases hv
    exact hsame.same.status.symm

end Sys2Proof.Machine
end

section
/-! SUPPORT. Reset and the host's sequence: the reset input (O56), an engine that waits for START (O58), and the stream
loaded into IN and started (O60), R138 to R140. -/

namespace Sys2Proof

/-! ### Cells written one after the other -/

/-- Write a list of values at rising addresses from `a` on. -/
def Cells.writeFrom {α : Type} (a : Nat) : List α → Cells α → Cells α
  | [], c => c
  | v :: rest, c => Cells.writeFrom (a + 1) rest (Cells.write a v c)

/-- The values listed stand from `a` on, and every other address reads as before. -/
theorem Cells.read?_writeFrom {α : Type} (a b : Nat) (vs : List α) (c : Cells α) :
    Cells.read? b (Cells.writeFrom a vs c) = if b < a then Cells.read? b c else vs[b - a]?.or (Cells.read? b c) := by
  induction vs generalizing a c with
  | nil => simp [Cells.writeFrom]
  | cons v rest ih =>
    rw [Cells.writeFrom, ih, Cells.read?_write]
    rcases Nat.lt_trichotomy b a with hlt | rfl | hgt
    · simp [hlt, Nat.lt_succ_of_lt hlt, Nat.ne_of_lt hlt]
    · simp
    · have hsub : b - a = b - (a + 1) + 1 := by omega
      rw [if_neg (by omega), if_neg (by omega), if_neg (by omega), hsub, List.getElem?_cons_succ]

namespace Machine

/-! ### Reset and the waiting engine -/

/-- HDR is 0 where its four fields are (R32). -/
theorem State.hdrWord_eq_zero {s : State} (h1 : s.width1 = 0) (h2 : s.width2 = 0) (horder : s.order = false)
    (hmode : s.mode = 0) : s.hdrWord = 0 := by
  rw [State.hdrWord, h1, h2, horder, hmode]
  rfl

/-- A reset that comes outside BUSY leaves every byte of OUT (R138). -/
theorem State.outByte_resetInput_of_not_busy {s : State} (hnb : s.status ≠ .busy) (a : Nat) :
    s.resetInput.outByte a = s.outByte a :=
  State.outByte_congr (by simp [hnb]) (by simp [hnb]) a

/-- A reset that comes while BUSY leaves no byte of OUT written (R138, U3). -/
theorem State.outByte_resetInput_of_busy {s : State} (hb : s.status = .busy) (a : Nat) :
    s.resetInput.outByte a = Config.unwrittenOut (s.outEra + 1) a := by
  simp [State.outByte, hb]

/-- Settles O56: the next event is the reset input, which leaves the events to come. -/
theorem resetInputResetsTheEngine : Obligations.ResetInputResetsTheEngine := by
  intro s rest hpending
  have hrest : s.pop.resetInput.pending = rest := by simp [hpending]
  have hhdr : s.pop.resetInput.hdrWord = 0 := State.hdrWord_eq_zero rfl rfl rfl rfl
  exact ⟨_, step_of_reset (by simp [hpending]), hrest, rfl, rfl, rfl, rfl, hhdr, rfl, rfl, rfl, rfl, rfl, rfl,
    State.outByte_resetInput_of_not_busy (s := s.pop), State.outByte_resetInput_of_busy (s := s.pop)⟩

/-- Settles O58: outside BUSY the engine's turn fetches nothing. -/
theorem engineWaitsForStart : Obligations.EngineWaitsForStart := by
  intro s hturn hnb
  have hwait : s.pop.fetchEngine = .wait s.pop := if_neg hnb
  rw [step, State.pop_of_engineNext hturn, hwait]

/-! ### The host's sequence -/

/-- A run goes on from where its first step leads. -/
theorem run_succ_of_step {n : Nat} {s t : State} (h : step s = .next t) : run (n + 1) s = run n t := by
  rw [run, h]

section
variable {s : State} {rest : List Event} (hnb : s.status ≠ .busy)
include hnb

/-- Outside BUSY a write of the host to IN stores its byte (R46). -/
theorem step_inWrite_of_not_busy {a : Nat} {v : Byte} (h : s.pending = .access (.inWrite 1 a v) :: rest)
    (ha : a < Config.inMemBytes) :
    step s = .next { s with pending := rest, inMem := Cells.write a v s.inMem } := by
  rw [step_of_access h (by simp) ((inAccessOk_iff 1 a).mpr ⟨rfl, ha⟩), State.pop_eq_of_pending h]
  simp [State.hostEffect, hnb, State.writeIn]

/-- Outside BUSY a count of bytes of IN is stored in IN_LEN as it is (R30). -/
theorem step_inLenWrite_of_not_busy {len : Nat} (h : s.pending = .access (.regWrite 4 8 (BitVec.ofNat 32 len)) :: rest)
    (hlen : len ≤ Config.inMemBytes) :
    step s = .next { s with pending := rest, inLen := BitVec.ofNat 32 len } := by
  have hmin : min (BitVec.ofNat 32 len).toNat Config.inMemBytes = (BitVec.ofNat 32 len).toNat :=
    Nat.min_eq_left (Nat.le_trans (Nat.mod_le ..) hlen)
  rw [step_regWrite h (by decide) (by decide) (by simp)]
  simp only [State.regWrite, hmin, hnb, ne_eq, not_false_eq_true, and_self, if_true, BitVec.ofNat_toNat,
    BitVec.setWidth_eq]

/-- A START word outside BUSY starts the decode (R110). -/
theorem step_start_of_not_busy {v : Word} (h : s.pending = .access (.regWrite 4 0 v) :: rest)
    (hstart : v.getLsbD 0 = true) : step s = .next (State.start { s with pending := rest }) := by
  rw [step_of_aboutToStart ⟨hnb, v, rest, h, hstart⟩, State.pop_eq_of_pending h]

end

/-- The sequence stores the bytes from `a` on, sets IN_LEN and starts the decode, one step for each access (R140). -/
theorem run_hostSequence {s : State} {len a : Nat} {bytes : List Byte} {later : List Event} (hnb : s.status ≠ .busy)
    (hlen : len ≤ Config.inMemBytes) (hfit : a + bytes.length ≤ Config.inMemBytes)
    (hpending : s.pending = hostSequence len a bytes ++ later) :
    run (bytes.length + 2) s = .next (State.start { s with
      pending := later, inLen := BitVec.ofNat 32 len, inMem := Cells.writeFrom a bytes s.inMem }) := by
  induction bytes generalizing s a with
  | nil =>
    have hstep := step_inLenWrite_of_not_busy hnb hpending hlen
    have hstart := step_start_of_not_busy
      (s := { s with pending := .access (.regWrite 4 0 1) :: later, inLen := BitVec.ofNat 32 len }) hnb rfl (by decide)
    exact (run_succ_of_step hstep).trans (run_succ_of_step hstart)
  | cons v rest ih =>
    rw [List.length_cons] at hfit
    have hstep := step_inWrite_of_not_busy hnb hpending (by omega)
    exact (run_succ_of_step hstep).trans (ih hnb (by omega) rfl)

/-- Settles O60: START finds the bytes in IN from address 0 on and their count in IN_LEN. -/
theorem hostSequenceStartsTheDecode : Obligations.HostSequenceStartsTheDecode := by
  intro s bytes later hnb hlen hpending
  have hcount : (BitVec.ofNat 32 bytes.length).toNat = bytes.length := by
    have htop := Config.inMemTop.isLt
    rw [Config.inMemBytes] at hlen
    exact Nat.mod_eq_of_lt (by omega)
  refine ⟨_, run_hostSequence hnb hlen (by omega) hpending, rfl, rfl, rfl, rfl, rfl,
    State.hdrWord_eq_zero rfl rfl rfl rfl, rfl, rfl, hcount, fun a ha => ?_, fun a ha => ?_, rfl, rfl, rfl⟩
  · simp [State.inByte, Cells.read?_writeFrom, ha]
  · simp [State.inByte, Cells.read?_writeFrom, ha]

end Machine
end Sys2Proof
end
